-- ==== Sys2Proof/Word.lean ====
section
/-! DEFINITION. The value types of the divider: the 64-bit limb, the byte, the 256-bit value of
four limbs (10_state.md R20, 00_scope.md R8) and the five-limb value the normalized dividend needs
(41_normalizer.md R135). Only types stand here; every function over them is in Machine/Operands.lean. -/

namespace Sys2Proof

/-- A limb, and an interface register: 64 bits (00_scope.md R6 `LIMB_WIDTH`, `REG_WIDTH`). -/
abbrev Word := BitVec 64

/-- One byte of the byte-offset view (20_memory.md R54). -/
abbrev Byte := BitVec 8

/-- A register index: 5 bits, 32 indices (00_scope.md R6 `REG_INDEX_WIDTH`, 30_encoding.md R73). -/
abbrev RegIndex := BitVec 5

/-- A Uint256: exactly four limbs, `w0` the least significant (10_state.md R20). -/
structure Uint256 where
  w0 : Word
  w1 : Word
  w2 : Word
  w3 : Word
  deriving DecidableEq, Repr, Inhabited

/-- Five limbs, 320 bits: the normalized dividend and running remainder `u[0..4]`
(00_scope.md R6 `NORM_DIVIDEND_LIMBS`, 10_state.md R33). -/
structure Uint320 where
  w0 : Word
  w1 : Word
  w2 : Word
  w3 : Word
  w4 : Word
  deriving DecidableEq, Repr, Inhabited

end Sys2Proof
end

