-- ==== Sys2Proof/Machine/Operands.lean ====
section
/-! DEFINITION. Limbs and bytes: the limb arrays of 00_scope.md R8, the assembly of an operand from its
four limbs and the disassembly of a result into four (30_encoding.md R75, R76), and the byte order of
the byte-offset view (20_memory.md R54). -/

namespace Sys2Proof

/-- `X[i]` of a 256-bit value (00_scope.md R8). There is no limb above 3; it reads as zero. -/
def Uint256.limb (x : Uint256) : Nat → Word
  | 0 => x.w0
  | 1 => x.w1
  | 2 => x.w2
  | 3 => x.w3
  | _ => 0

/-- `X[i] <- w`. There is no limb above 3; writing it changes nothing. -/
def Uint256.setLimb (x : Uint256) (i : Nat) (w : Word) : Uint256 :=
  match i with
  | 0 => { x with w0 := w }
  | 1 => { x with w1 := w }
  | 2 => { x with w2 := w }
  | 3 => { x with w3 := w }
  | _ => x

/-- `u[i]` of the five-limb array. There is no limb above 4; it reads as zero. -/
def Uint320.limb (x : Uint320) : Nat → Word
  | 0 => x.w0
  | 1 => x.w1
  | 2 => x.w2
  | 3 => x.w3
  | 4 => x.w4
  | _ => 0

/-- `u[i] <- w`. There is no limb above 4; writing it changes nothing. -/
def Uint320.setLimb (x : Uint320) (i : Nat) (w : Word) : Uint320 :=
  match i with
  | 0 => { x with w0 := w }
  | 1 => { x with w1 := w }
  | 2 => { x with w2 := w }
  | 3 => { x with w3 := w }
  | 4 => { x with w4 := w }
  | _ => x

/-- `Val(x[lo .. lo + count - 1])`, the sum of `x[lo + i] * 2^(64 i)` over `i < count`
(00_scope.md R8). -/
def valSlice (x : Nat → Word) (lo : Nat) : Nat → Nat
  | 0 => 0
  | count + 1 => valSlice x lo count + (x (lo + count)).toNat * 2 ^ (64 * count)

/-- `Val(X) = X[0] + X[1] 2^64 + X[2] 2^128 + X[3] 2^192` (00_scope.md R8, 30_encoding.md R75). Every
limb is unsigned. -/
def Uint256.val (x : Uint256) : Nat :=
  x.w0.toNat + x.w1.toNat * 2 ^ 64 + x.w2.toNat * 2 ^ 128 + x.w3.toNat * 2 ^ 192

/-- Limb `k` of the number `x`: `(x div 2^(64k)) mod 2^64` (30_encoding.md R76). -/
def limbOfNat (x k : Nat) : Word := BitVec.ofNat 64 (x / 2 ^ (64 * k))

/-- The four limbs of a number (30_encoding.md R76). -/
def Uint256.ofNat (x : Nat) : Uint256 :=
  { w0 := limbOfNat x 0, w1 := limbOfNat x 1, w2 := limbOfNat x 2, w3 := limbOfNat x 3 }

/-- Zero, four limbs. -/
def Uint256.zero : Uint256 := { w0 := 0, w1 := 0, w2 := 0, w3 := 0 }

/-- Zero, five limbs. -/
def Uint320.zero : Uint320 := { w0 := 0, w1 := 0, w2 := 0, w3 := 0, w4 := 0 }

/-- `lo64(p) = p mod 2^64` (00_scope.md R9). -/
def lo64 (p : Nat) : Nat := p % 2 ^ 64

/-- `hi64(p) = p div 2^64` (00_scope.md R9). -/
def hi64 (p : Nat) : Nat := p / 2 ^ 64

/-- Byte `k` of a register, bits `8k+7 : 8k`: little-endian (20_memory.md R54). -/
def byteOfWord (w : Word) (k : Nat) : Byte := w.extractLsb' (8 * k) 8

/-- The eight bytes of a register in increasing address order (20_memory.md R54). -/
def bytesOfWord (w : Word) : List Byte :=
  [byteOfWord w 0, byteOfWord w 1, byteOfWord w 2, byteOfWord w 3,
   byteOfWord w 4, byteOfWord w 5, byteOfWord w 6, byteOfWord w 7]

/-- The number whose little-endian bytes these are (20_memory.md R54). -/
def bytesVal : List Byte → Nat
  | [] => 0
  | b :: bs => b.toNat + 256 * bytesVal bs

/-- The register value whose eight bytes, in increasing address order, these are. -/
def wordOfBytes (bs : List Byte) : Word := BitVec.ofNat 64 (bytesVal bs)

end Sys2Proof
end

