-- ==== Sys2Proof/Config.lean ====
section
/-! DEFINITION. What an implementation or a platform fixes (00_scope.md R6, the OPEN parameters) and
the free values: what the spec leaves unspecified although the unit goes on. A `Config` is held in
State, unchanged by every step, so that a statement about every state is a statement about every
choice of the open parameters. -/

namespace Sys2Proof

/-- `ESTIMATOR_PRETEST` (00_scope.md R6, 42_trial_quotient.md R155). -/
inductive Pretest where
  /-- `NONE`, the reference value: the classic one-limb estimate only. -/
  | off
  /-- `TWO_LIMB`: the estimate is refined by the two-limb pretest. -/
  | twoLimb
  deriving DecidableEq, Repr, Inhabited

/-- What becomes of an access or a command that uses a value the spec leaves unspecified: a read of Q or RM
while STATUS.VALID = 0 (10_state.md R24), a read of an operand register that nothing has written since reset,
a DIVMOD with one (R35). The spec gives both readings, for a model and for the hardware
(93_implementation_defined.md U2 to U4, 92_eei_decisions.md D16, D18). -/
inductive OnUnspecified where
  /-- The spec's model: the use is the fault `ResultNotValid`, `UnwrittenRegister` or
  `UnwrittenOperand`. -/
  | fault
  /-- The spec's hardware: "The hardware would return or use whatever its register holds"
  (10_state.md R35). -/
  | goOn
  deriving DecidableEq, Repr, Inhabited

/-- The parameters fixed for one unit. `INSTANCES` is the number of units of a
`Machine.Platform`; `DIV_LATENCY` is `Config.divLatency`. -/
structure Config where
  /-- `DIV_BASE` divided by 256: the parameter is a multiple of 256 (00_scope.md R6), so holding
  the block number makes every value a legal one. -/
  windowBlock : Nat
  /-- `ESTIMATOR_PRETEST`. -/
  pretest : Pretest
  /-- The MODEL's own parameter, no hardware parameter: which of the spec's two readings of an
  unspecified value holds (assumptions 4 and 7). -/
  onUnspecified : OnUnspecified
  deriving DecidableEq, Repr, Inhabited

/-- The parameters after reset: the window at address 0 (assumption 9, DESIGN CHOICE), `ESTIMATOR_PRETEST` at
its reference value `NONE`, and unspecified values used as the hardware uses them, so that every access and
command runs from reset (assumptions 4 and 7, DESIGN CHOICE). No statement rests on these values. -/
def Config.reference : Config :=
  { windowBlock := 0, pretest := .off, onUnspecified := .goOn }

/-- `DIV_BASE`, the byte address of the register window (20_memory.md R51). -/
def Config.divBase (c : Config) : Nat := 256 * c.windowBlock

/-- Where a free value is drawn for: a limb of a result register that holds no result, or a field of
the internal datapath state, named by its place in `Datapath` (10_state.md R24, R33). -/
inductive FreeSite where
  | quotientLimb (k : Nat)
  | remainderLimb (k : Nat)
  | scratch (field : Nat)
  deriving DecidableEq, Repr

/-- A free value of `w` bits: what the spec calls unspecified while the unit goes on
(60_exceptions.md R201, 10_state.md R33). `unit` is the unit's window block and `draw` State's counter,
so that neither two commands of one unit nor the units of one platform need agree. It has no body:
nothing in Lean can prove a value of it.

DESIGN CHOICE (assumptions 5 and 6): which draws agree is fixed by the arguments. Two states with the
same window block and the same counter draw the SAME value; whether such unspecified values of two units,
or of two runs, agree is left open by the spec (93_implementation_defined.md U2, U3). Unsafe for a claim that
compares two units or two runs by these values: of the statements only HostIdentityNeverMatters
compares two runs that draw, from one state. -/
opaque Config.freeBits (w : Nat) (site : FreeSite) (unit draw : Nat) : BitVec w

/-- `DIV_LATENCY`: the time of a command, finite for every dividend and divisor and otherwise open
(70_reset_and_hazards.md R240). No rule reads it and no step does (assumption 10). -/
opaque Config.divLatency (dividend divisor : Uint256) : Nat

end Sys2Proof
end

