-- ==== Sys2Proof/Syntax.lean ====
section
/-! DEFINITION. Syntax: the commands of the unit (30_encoding.md R70 to R72, one row of
opcode_table.json) and the lines of a host program (30_encoding.md R78, R79), which stand for
register accesses and are no commands of the unit. -/

namespace Sys2Proof

/-- The commands of the unit: DIVMOD is the only one, and its word carries no operand
(30_encoding.md R70, R71). -/
inductive Instr where
  /-- DIVMOD (40_divmod.md R103). -/
  | divmod
  deriving DecidableEq, Repr

/-- `<reg>` of 30_encoding.md R78: a register name of 10_state.md R21, or `IDX<k>`. -/
inductive Reg where
  | a0 | a1 | a2 | a3
  | b0 | b1 | b2 | b3
  | q0 | q1 | q2 | q3
  | rm0 | rm1 | rm2 | rm3
  | cmd | status
  /-- `IDX<k>`, a raw index. -/
  | idx (k : Nat)
  deriving DecidableEq, Repr

/-- A register group of four limbs (30_encoding.md R73). -/
inductive Group where
  | a | b | q | rm
  deriving DecidableEq, Repr

/-- One line of a host program: the two transactions of 30_encoding.md R78 and the
pseudo-instructions of R79. Host control flow and host arithmetic are not lines of the unit. -/
inductive Line where
  /-- `WR <reg>, <imm64>`. -/
  | wr (r : Reg) (imm : Nat)
  /-- `RD <reg> -> <h>`. -/
  | rd (r : Reg)
  /-- `DIVMOD`. -/
  | divmod
  /-- `LD256 A, <imm256>` and `LD256 B, <imm256>`. -/
  | ld256 (g : Group) (imm : Nat)
  /-- `RD256 Q -> <h>`, `RD256 RM -> <h>`, and `RD256 B -> <h>` as program P3 of
  95_test_vectors.md writes it. -/
  | rd256 (g : Group)
  /-- `CALLDIV <imm256 d>, <imm256 v>`. -/
  | calldiv (d v : Nat)
  deriving DecidableEq, Repr

end Sys2Proof
end

