-- ==== Sys2Proof/WellFormed.lean ====
section
/-! DEFINITION. Which syntax is well formed. A command has no operand to check (30_encoding.md R70);
a host program line has the bounds 30_encoding.md R78 and R79 give its literals. -/

namespace Sys2Proof

/-- Every command is well formed: its word has no operand field (30_encoding.md R70, R77). -/
def Instr.wellFormed : Instr → Bool
  | .divmod => true

/-- A raw index `IDX<k>` is in 0 .. 31 (30_encoding.md R78). -/
def Reg.wellFormed : Reg → Bool
  | .idx k => decide (k < 32)
  | _ => true

/-- `<imm64>` is a literal below 2^64 (30_encoding.md R78). -/
def imm64Ok (x : Nat) : Bool := decide (x < 2 ^ 64)

/-- `<imm256>` is a 256-bit literal (30_encoding.md R79). -/
def imm256Ok (x : Nat) : Bool := decide (x < 2 ^ 256)

/-- `LD256` names an operand group, A or B (30_encoding.md R79). -/
def Group.isOperand : Group → Bool
  | .a => true
  | .b => true
  | .q => false
  | .rm => false

def Line.wellFormed : Line → Bool
  | .wr r imm => r.wellFormed && imm64Ok imm
  | .rd r => r.wellFormed
  | .divmod => true
  | .ld256 g imm => g.isOperand && imm256Ok imm
  | .rd256 _ => true
  | .calldiv d v => imm256Ok d && imm256Ok v

end Sys2Proof
end

