-- ==== Sys2Proof/Decode.lean ====
section
/-! DEFINITION. Decoding of command words (30_encoding.md R70 to R72, R77, R80), total on every word and on
every list of bytes and rejecting by name, and after it the encoder. A rejected word is the
IllegalCommand of 60_exceptions.md R204, not a stop of the machine. -/

namespace Sys2Proof

/-- Why a word is no command (30_encoding.md R72). The names are the model's (assumption 22): the unit
reports every one of them alike, as STATUS.ILLCMD. -/
inductive DecodeReject where
  /-- `RSV`, bits 63:8, is not zero. -/
  | reservedBits
  /-- `RSV` is zero and `OPC` is not 0x01. -/
  | undefinedOpcode (opc : BitVec 8)
  /-- Not eight bytes: there is no other command length (30_encoding.md R70, R77). -/
  | wrongLength (count : Nat)
  deriving DecidableEq, Repr

/-- `OPC`, bits 7:0 of the command word (30_encoding.md R70). -/
def opcField (w : Word) : BitVec 8 := w.extractLsb' 0 8

/-- `RSV`, bits 63:8 of the command word (30_encoding.md R70). -/
def rsvField (w : Word) : BitVec 56 := w.extractLsb' 8 56

/-- The command word decoder (30_encoding.md R72). -/
def decode (w : Word) : Except DecodeReject Instr :=
  if rsvField w = 0 then
    if opcField w = 0x01 then .ok .divmod else .error (.undefinedOpcode (opcField w))
  else .error .reservedBits

/-- The decoder on bytes in increasing address order (20_memory.md R54). -/
def decodeBytes (bs : List Byte) : Except DecodeReject Instr :=
  if bs.length = 8 then decode (wordOfBytes bs) else .error (.wrongLength bs.length)

/-- The command word of a command: `RSV` zero above its `OPC` (30_encoding.md R70, R71). -/
def encode : Instr → Word
  | .divmod => (0 : BitVec 56) ++ (0x01 : BitVec 8)

/-- A row of the opcode table: the word `w` is the row's command when `w AND mask = pattern`. -/
structure OpcodeRow where
  mask : Word
  pattern : Word
  instr : Instr
  deriving DecidableEq, Repr

/-- The opcode table: one row (30_encoding.md R80). -/
def opcodeTable : List OpcodeRow :=
  [{ mask := 0xFFFFFFFFFFFFFFFF, pattern := 0x0000000000000001, instr := .divmod }]

/-- The instruction the decoder reads from the bits of `w` below `nbits`, every bit above being zero.
A word that does not fit 64 bits is no command word. -/
def decodeTableWord (nbits w : Nat) : Option Instr :=
  if w % 2 ^ nbits < 2 ^ 64 then
    match decodeBytes (bytesOfWord (BitVec.ofNat 64 (w % 2 ^ nbits))) with
    | .ok i => some i
    | .error _ => none
  else none

end Sys2Proof
end

