-- ==== Sys2Proof/Machine/State.lean ====
section
/-! DEFINITION. The state of one unit as plain data (10_state.md, 70_reset_and_hazards.md R230), the
inputs that reach it (20_memory.md R60, 30_encoding.md R74), the ways a step can stop, and the state
after reset. -/

namespace Sys2Proof.Machine

/-- One register access of a host (30_encoding.md R74, 20_memory.md R51). -/
inductive Access where
  /-- `RD idx` = `RegRead(idx)`. -/
  | read (idx : RegIndex)
  /-- `WR idx, data` = `RegWrite(idx, data)`. -/
  | write (idx : RegIndex) (data : Word)
  /-- A read of `size` bytes at a byte address of the host bus. -/
  | busRead (addr size : Nat)
  /-- A write of bytes, given in increasing address order, at a byte address of the host bus. -/
  | busWrite (addr : Nat) (data : List Byte)
  deriving DecidableEq, Repr

/-- What reaches the unit from outside. -/
inductive Event where
  /-- An access by the host numbered `host`; the unit never looks at the number
  (60_exceptions.md R212). -/
  | access (host : Nat) (a : Access)
  /-- Reset (70_reset_and_hazards.md R230, R231). -/
  | reset
  deriving DecidableEq, Repr

/-- What a host is given back for an access that is no error (30_encoding.md R74). -/
inductive Reply where
  /-- The 64 bits of `RD`. -/
  | data (w : Word)
  /-- The eight bytes of a bus read, in increasing address order. -/
  | bytes (bs : List Byte)
  /-- Completion of a write. -/
  | done
  deriving DecidableEq, Repr

/-- A reply and the host it goes to (60_exceptions.md R211). -/
structure Response where
  host : Nat
  reply : Reply
  deriving DecidableEq, Repr

/-- Which of A0 .. A3, B0 .. B3 a host has written since reset (10_state.md R35; model state, not
hardware state). -/
structure OperandMarks where
  a0 : Bool
  a1 : Bool
  a2 : Bool
  a3 : Bool
  b0 : Bool
  b1 : Bool
  b2 : Bool
  b3 : Bool
  deriving DecidableEq, Repr

/-- The internal datapath state, with the widths of 10_state.md R33. -/
structure Datapath where
  /-- Effective limb count of the divisor. -/
  n : BitVec 3
  /-- Effective limb count of the dividend. -/
  m : BitVec 3
  /-- Normalization shift. -/
  s : BitVec 6
  /-- Normalized divisor. -/
  v : Uint256
  /-- Normalized dividend, then running remainder. -/
  u : Uint320
  /-- Quotient digits. -/
  qd : Uint256
  /-- Current digit position. -/
  j : BitVec 2
  /-- Trial and corrected quotient digit. -/
  qhat : Word
  /-- Partial remainder of the two-limb pretest. -/
  rhat : BitVec 65
  /-- Correction steps taken for the current digit. -/
  corr : BitVec 2
  /-- Product carry of the multiply-subtract. -/
  carry : Word
  /-- Subtract borrow of the multiply-subtract. -/
  borrow : Bool
  /-- Running remainder of the single-limb path. -/
  r : Word
  /-- A two-limb dividend window, or the difference of a multiply-subtract step in two's
  complement (assumption 19). -/
  t : BitVec 128
  /-- A limb product. -/
  p : BitVec 128
  deriving DecidableEq, Repr

/-- All the state of one unit and of its port. -/
structure State where
  /-- The open parameters; no step changes them (00_scope.md R6). -/
  config : Config
  /-- A0 .. A3, the dividend (10_state.md R22). -/
  a : Uint256
  /-- B0 .. B3, the divisor (10_state.md R23). -/
  b : Uint256
  /-- Q0 .. Q3, the quotient (10_state.md R24). -/
  q : Uint256
  /-- RM0 .. RM3, the remainder (10_state.md R25). -/
  rm : Uint256
  /-- STATUS (10_state.md R27); its fields are read through Machine/Flags.lean. -/
  status : Word
  /-- Written-ness of the operand registers (10_state.md R35). -/
  written : OperandMarks
  /-- The internal datapath state (10_state.md R33). -/
  datapath : Datapath
  /-- The MODEL's own counter of DIVMOD commands, which numbers the free values drawn
  (assumptions 5 and 6). -/
  freeDraws : Nat
  /-- The accesses and resets still to be performed, in the order of the one host port, next first
  (20_memory.md R60). -/
  port : List Event
  /-- The replies given, newest first. -/
  responses : List Response
  deriving DecidableEq, Repr

/-- Why an access is an AccessError (60_exceptions.md R205). -/
inductive AccessCause where
  /-- A reserved index or a wrong access right. -/
  | register (idx : RegIndex)
  /-- A bus access of a wrong size or alignment (20_memory.md R52). -/
  | malformed (addr size : Nat)
  deriving DecidableEq, Repr

/-- The ways a step stops with a fault. -/
inductive Fault where
  /-- AccessError (60_exceptions.md R205): raised by a host access that breaks an access right,
  names a reserved index, or has a wrong size or alignment. The hardware answers with an error
  response and changes nothing. SAFE: the model stops where a host might go on. -/
  | accessError (cause : AccessCause)
  /-- ResultNotValid (10_state.md R24): raised by a host read of Q or RM while STATUS.VALID = 0, where
  `Config.onUnspecified` is `fault`. SAFE: the hardware returns unspecified data. -/
  | resultNotValid (idx : RegIndex)
  /-- UnwrittenRegister (10_state.md R35): raised by a host read of an operand register not written
  since reset, where `Config.onUnspecified` is `fault`. SAFE: the hardware returns what it holds. -/
  | unwrittenRegister (idx : RegIndex)
  /-- UnwrittenOperand (10_state.md R35): raised by DIVMOD while an operand register is unwritten, where
  `Config.onUnspecified` is `fault`. SAFE: the hardware divides what the registers hold. -/
  | unwrittenOperand
  /-- InternalBorrow (43_correction_refiner.md R177): raised by DIVMOD on a final borrow of 1 in a
  multiply-subtract. SAFE: no input reaches it. -/
  | internalBorrow
  deriving DecidableEq, Repr

/-- The ways a step has no meaning. -/
inductive Refusal where
  /-- An instruction that has no meaning yet: raised by `exec` alone. SAFE. -/
  | notModelled (mnemonic : String)
  /-- A bus access that touches no byte of the register window: what answers it is the platform's
  (20_memory.md R51). SAFE: the model stops. -/
  | outsideWindow (addr size : Nat)
  deriving DecidableEq, Repr

/-- No operand register is written (10_state.md R35). -/
def OperandMarks.none : OperandMarks :=
  { a0 := false, a1 := false, a2 := false, a3 := false,
    b0 := false, b1 := false, b2 := false, b3 := false }

/-- The datapath state at reset: the spec gives no value, zero is named (assumption 3). -/
def Datapath.reset : Datapath :=
  { n := 0, m := 0, s := 0, v := Uint256.zero, u := Uint320.zero, qd := Uint256.zero, j := 0,
    qhat := 0, rhat := 0, corr := 0, carry := 0, borrow := false, r := 0, t := 0, p := 0 }

/-- The unit right after reset (70_reset_and_hazards.md R230): STATUS is zero and every operand register
is unwritten, as the spec says; the data registers and the datapath state, which the spec leaves
unspecified, hold zero (DESIGN CHOICE, assumptions 1 to 3); no command is in progress and no access
waits at the port. -/
def State.reset : State :=
  { config := Config.reference
    a := Uint256.zero
    b := Uint256.zero
    q := Uint256.zero
    rm := Uint256.zero
    status := 0
    written := OperandMarks.none
    datapath := Datapath.reset
    freeDraws := 0
    port := []
    responses := [] }

end Sys2Proof.Machine
end

