-- ==== Sys2Proof/Machine/Flags.lean ====
section
/-! DEFINITION. STATUS: its fields and every way it is computed (10_state.md R27 to R29, R31). The unit has
no other flag. -/

namespace Sys2Proof.Machine

/-- STATUS.VALID, bit 0. -/
def statusValid (w : Word) : Bool := w.getLsbD 0

/-- STATUS.DBZ, bit 1. -/
def statusDbz (w : Word) : Bool := w.getLsbD 1

/-- STATUS.ILLCMD, bit 2. -/
def statusIllcmd (w : Word) : Bool := w.getLsbD 2

/-- The STATUS word of three fields: bits 63:3 are hardwired zero (10_state.md R27). -/
def statusWord (valid dbz illcmd : Bool) : Word :=
  BitVec.ofNat 64 (valid.toNat + 2 * dbz.toNat + 4 * illcmd.toNat)

/-- What a host reads from STATUS: bits 63:3 always read as zero (10_state.md R27). -/
def statusRead (w : Word) : Word :=
  statusWord (statusValid w) (statusDbz w) (statusIllcmd w)

/-- STATUS after a DIVMOD with a nonzero divisor: VALID 1, DBZ 0, ILLCMD 0 (10_state.md R28). -/
def statusAfterResult : Word := statusWord true false false

/-- STATUS after a DIVMOD with divisor zero: VALID 0, DBZ 1, ILLCMD 0 (10_state.md R28). -/
def statusAfterDivisionByZero : Word := statusWord false true false

/-- STATUS after an illegal command word: ILLCMD 1, the rest unchanged (10_state.md R28). -/
def statusAfterIllegalCommand (w : Word) : Word :=
  statusWord (statusValid w) (statusDbz w) true

/-- The legal values of STATUS: bits 63:3 zero, and not both VALID and DBZ (10_state.md R29). -/
def statusLegal (w : Word) : Bool :=
  decide (w.extractLsb' 3 61 = 0) && !(statusValid w && statusDbz w)

end Sys2Proof.Machine
end

