-- ==== Sys2Proof/Machine/Ops.lean ====
section
/-! DEFINITION. The named operations over the registers and the outcomes shared by every command: the one
place that reads or writes an interface register (20_memory.md R55, R56), DivisionByZero and
IllegalCommand (60_exceptions.md R201, R204), the result of a DIVMOD (40_divmod.md R103), reset
(70_reset_and_hazards.md R230) and the host's reply. The unit takes no trap and returns from none
(60_exceptions.md R209, R210), so these outcomes are all there is of taking an exception. -/

namespace Sys2Proof.Machine

/-! ### Written-ness of the operand registers (10_state.md R35) -/

/-- Whether operand register `i` (0 .. 7) is written. -/
def OperandMarks.isWritten (k : OperandMarks) : Nat → Bool
  | 0 => k.a0
  | 1 => k.a1
  | 2 => k.a2
  | 3 => k.a3
  | 4 => k.b0
  | 5 => k.b1
  | 6 => k.b2
  | 7 => k.b3
  | _ => false

/-- Operand register `i` (0 .. 7) becomes written. -/
def OperandMarks.mark (k : OperandMarks) (i : Nat) : OperandMarks :=
  match i with
  | 0 => { k with a0 := true }
  | 1 => { k with a1 := true }
  | 2 => { k with a2 := true }
  | 3 => { k with a3 := true }
  | 4 => { k with b0 := true }
  | 5 => { k with b1 := true }
  | 6 => { k with b2 := true }
  | 7 => { k with b3 := true }
  | _ => k

/-- All eight operand registers are written (70_reset_and_hazards.md R236). -/
def OperandMarks.all (k : OperandMarks) : Bool :=
  k.a0 && k.a1 && k.a2 && k.a3 && k.b0 && k.b1 && k.b2 && k.b3

/-! ### Where an unspecified value may be used (10_state.md R24, R35) -/

/-- A use of an unspecified value is a fault and not the hardware's (assumptions 4 and 7). -/
def State.faultsUnspecified (s : State) : Bool := decide (s.config.onUnspecified = .fault)

/-- Operand register `i` may be read: it is written, or an unspecified value may be used. -/
def State.operandReadable (s : State) (i : Nat) : Bool :=
  !s.faultsUnspecified || s.written.isWritten i

/-- A DIVMOD may use the operands: all are written, or an unspecified value may be used. -/
def State.operandsReady (s : State) : Bool := !s.faultsUnspecified || s.written.all

/-- Q and RM may be read: they hold a result, or an unspecified value may be used. -/
def State.resultReadable (s : State) : Bool := !s.faultsUnspecified || statusValid s.status

/-! ### The register file (10_state.md R21, 30_encoding.md R73) -/

/-- What data register `i` (0 .. 15) holds: A, B, Q, RM, each least significant limb first. -/
def State.cell (s : State) (i : Nat) : Word :=
  if i < 4 then s.a.limb i
  else if i < 8 then s.b.limb (i - 4)
  else if i < 12 then s.q.limb (i - 8)
  else s.rm.limb (i - 12)

/-- Write operand register `i` (0 .. 7) and mark it written (20_memory.md R56, 10_state.md R35). -/
def State.writeOperand (s : State) (i : Nat) (w : Word) : State :=
  if i < 4 then { s with a := s.a.setLimb i w, written := s.written.mark i }
  else { s with b := s.b.setLimb (i - 4) w, written := s.written.mark i }

/-- `RegRead(idx)` (20_memory.md R55). Where the configuration says `fault`, a read of an unspecified value is
the fault of 10_state.md R24 or R35; where it says `goOn`, the read gives what the register holds, as the
hardware's does (assumptions 4 and 7). -/
def regRead (s : State) (idx : RegIndex) : Except Fault Word :=
  if idx.toNat < 8 then
    if s.operandReadable idx.toNat then .ok (s.cell idx.toNat) else .error (.unwrittenRegister idx)
  else if idx.toNat < 16 then
    if s.resultReadable then .ok (s.cell idx.toNat) else .error (.resultNotValid idx)
  else if idx.toNat = 17 then .ok (statusRead s.status)
  else .error (.accessError (.register idx))

/-! ### Free values -/

/-- A 256-bit result group that holds no result: four free limbs (60_exceptions.md R201), the ones of
this unit and this draw (assumption 5: the model's choice of which draws agree). -/
def freeQuotient (unit draw : Nat) : Uint256 :=
  { w0 := Config.freeBits 64 (.quotientLimb 0) unit draw
    w1 := Config.freeBits 64 (.quotientLimb 1) unit draw
    w2 := Config.freeBits 64 (.quotientLimb 2) unit draw
    w3 := Config.freeBits 64 (.quotientLimb 3) unit draw }

/-- As `freeQuotient`, for the remainder group. -/
def freeRemainder (unit draw : Nat) : Uint256 :=
  { w0 := Config.freeBits 64 (.remainderLimb 0) unit draw
    w1 := Config.freeBits 64 (.remainderLimb 1) unit draw
    w2 := Config.freeBits 64 (.remainderLimb 2) unit draw
    w3 := Config.freeBits 64 (.remainderLimb 3) unit draw }

/-- The datapath state between commands: every field is free (10_state.md R33), the values of this unit and
this draw (assumption 6: the model's choice of which draws agree). -/
def freeDatapath (unit draw : Nat) : Datapath :=
  { n := Config.freeBits 3 (.scratch 0) unit draw
    m := Config.freeBits 3 (.scratch 1) unit draw
    s := Config.freeBits 6 (.scratch 2) unit draw
    v := { w0 := Config.freeBits 64 (.scratch 3) unit draw
           w1 := Config.freeBits 64 (.scratch 4) unit draw
           w2 := Config.freeBits 64 (.scratch 5) unit draw
           w3 := Config.freeBits 64 (.scratch 6) unit draw }
    u := { w0 := Config.freeBits 64 (.scratch 7) unit draw
           w1 := Config.freeBits 64 (.scratch 8) unit draw
           w2 := Config.freeBits 64 (.scratch 9) unit draw
           w3 := Config.freeBits 64 (.scratch 10) unit draw
           w4 := Config.freeBits 64 (.scratch 11) unit draw }
    qd := { w0 := Config.freeBits 64 (.scratch 12) unit draw
            w1 := Config.freeBits 64 (.scratch 13) unit draw
            w2 := Config.freeBits 64 (.scratch 14) unit draw
            w3 := Config.freeBits 64 (.scratch 15) unit draw }
    j := Config.freeBits 2 (.scratch 16) unit draw
    qhat := Config.freeBits 64 (.scratch 17) unit draw
    rhat := Config.freeBits 65 (.scratch 18) unit draw
    corr := Config.freeBits 2 (.scratch 19) unit draw
    carry := Config.freeBits 64 (.scratch 20) unit draw
    borrow := (Config.freeBits 1 (.scratch 21) unit draw).getLsbD 0
    r := Config.freeBits 64 (.scratch 22) unit draw
    t := Config.freeBits 128 (.scratch 23) unit draw
    p := Config.freeBits 128 (.scratch 24) unit draw }

/-! ### The outcomes of a command -/

/-- DivisionByZero (60_exceptions.md R201, R202): STATUS records it, Q and RM hold unspecified values, A
and B are unchanged, and no pair is given as a result. -/
def State.divisionByZero (s : State) : State :=
  { s with
    status := statusAfterDivisionByZero
    q := freeQuotient s.config.windowBlock s.freeDraws
    rm := freeRemainder s.config.windowBlock s.freeDraws
    datapath := freeDatapath s.config.windowBlock s.freeDraws
    freeDraws := s.freeDraws + 1 }

/-- The result of a DIVMOD (40_divmod.md R103, R110): both numbers as four limbs, least significant first,
and STATUS. The datapath state is unspecified from here on (10_state.md R33). -/
def State.writeResult (s : State) (quotient remainder : Nat) : State :=
  { s with
    status := statusAfterResult
    q := Uint256.ofNat quotient
    rm := Uint256.ofNat remainder
    datapath := freeDatapath s.config.windowBlock s.freeDraws
    freeDraws := s.freeDraws + 1 }

/-- IllegalCommand (60_exceptions.md R204): STATUS.ILLCMD alone. -/
def State.illegalCommand (s : State) : State :=
  { s with status := statusAfterIllegalCommand s.status }

/-- Reset (70_reset_and_hazards.md R230, R231): every register and the datapath state as in
`State.reset`. The parameters, the accesses still waiting, the replies already given and the model's own
counter are no state of the unit that reset touches (assumption 13). -/
def State.resetUnit (s : State) : State :=
  { State.reset with
    config := s.config
    freeDraws := s.freeDraws
    port := s.port
    responses := s.responses }

/-- Give a host its reply (30_encoding.md R74, 60_exceptions.md R211). -/
def State.respond (s : State) (host : Nat) (reply : Reply) : State :=
  { s with responses := { host := host, reply := reply } :: s.responses }

/-- The port with its next event taken off (20_memory.md R60). -/
def State.setPort (s : State) (rest : List Event) : State :=
  { s with port := rest }

end Sys2Proof.Machine
end

