-- ==== Sys2Proof/Machine/Normalizer.lean ====
section
/-! DEFINITION. The limb normalizer: limb counts, leading-zero count, normalization of both operands and
de-normalization of the remainder (41_normalizer.md R130 to R140). -/

namespace Sys2Proof.Machine

/-- `nlimbs(X)`: one more than the index of the most significant nonzero limb (41_normalizer.md R130,
90_conflicts.md C4). The spec never needs `nlimbs(0)`; it is 0 here (assumption 16). -/
def nlimbs (x : Uint256) : Nat :=
  if x.w3 ≠ 0 then 4
  else if x.w2 ≠ 0 then 3
  else if x.w1 ≠ 0 then 2
  else if x.w0 ≠ 0 then 1
  else 0

/-- The zero bits of `x` below bit `k` and above its highest one bit below `k`. -/
def clzBelow (x : Word) : Nat → Nat
  | 0 => 0
  | k + 1 => if x.getLsbD k then 0 else clzBelow x k + 1

/-- `clz64(x)`: the zero bits above the most significant one bit (41_normalizer.md R132). The spec never
needs `clz64(0)`; it is 64 here (assumption 16). -/
def clz64 (x : Word) : Nat := clzBelow x 64

/-- Limb `i` of an array of `count` limbs shifted left by `s` bits (41_normalizer.md R134, R135), with the
shift guard of R136: no shift by 64 is ever evaluated. -/
def shiftLimb (x : Nat → Word) (count s i : Nat) : Word :=
  ((if i < count then x i else 0) <<< s) |||
    (if 0 < s ∧ 0 < i then x (i - 1) >>> (64 - s) else 0)

/-- The first `k` limb writes of the normalized divisor; other limbs keep what they held
(41_normalizer.md R134). -/
def writeNormDivisor (V : Uint256) (n s : Nat) (v : Uint256) : Nat → Uint256
  | 0 => v
  | k + 1 => (writeNormDivisor V n s v k).setLimb k (shiftLimb V.limb n s k)

/-- The first `k` limb writes of the normalized dividend; other limbs keep what they held
(41_normalizer.md R135). -/
def writeNormDividend (D : Uint256) (m s : Nat) (u : Uint320) : Nat → Uint320
  | 0 => u
  | k + 1 => (writeNormDividend D m s u k).setLimb k (shiftLimb D.limb m s k)

/-- The normalization shift (41_normalizer.md R133). -/
def normShift (V : Uint256) : Nat := clz64 (V.limb (nlimbs V - 1))

/-- The normalizer at the start of the general path: `n`, `m`, `s`, `n` limbs of `v` and `m + 1` limbs of
`u` (41_normalizer.md R131 to R135). -/
def normalize (D V : Uint256) (dp : Datapath) : Datapath :=
  { dp with
    n := BitVec.ofNat 3 (nlimbs V)
    m := BitVec.ofNat 3 (nlimbs D)
    s := BitVec.ofNat 6 (normShift V)
    v := writeNormDivisor V (nlimbs V) (normShift V) dp.v (nlimbs V)
    u := writeNormDividend D (nlimbs D) (normShift V) dp.u (nlimbs D + 1) }

/-- Limb `i` of the de-normalized remainder (41_normalizer.md R138). -/
def denormLimb (u : Nat → Word) (n s i : Nat) : Word :=
  if i < n then
    (u i >>> s) ||| (if 0 < s ∧ i + 1 < n then u (i + 1) <<< (64 - s) else 0)
  else 0

/-- De-normalization: limbs 0 .. n - 1 of `u` shifted right by `s`, zero above (41_normalizer.md R138). -/
def denormalize (u : Uint320) (n s : Nat) : Uint256 :=
  { w0 := denormLimb u.limb n s 0
    w1 := denormLimb u.limb n s 1
    w2 := denormLimb u.limb n s 2
    w3 := denormLimb u.limb n s 3 }

end Sys2Proof.Machine
end

