-- ==== Sys2Proof/Machine/Estimator.lean ====
section
/-! DEFINITION. The trial-quotient estimator (42_trial_quotient.md R150 to R157): the classic estimate from
the top two limbs of the working value and the top limb of the divisor, and the optional two-limb
pretest. -/

namespace Sys2Proof.Machine

/-- `num`, the top two limbs of the working value (42_trial_quotient.md R151). -/
def topTwo (u : Uint320) (n j : Nat) : Nat :=
  (u.limb (j + n)).toNat * 2 ^ 64 + (u.limb (j + n - 1)).toNat

/-- `qraw`, the unclamped estimate (42_trial_quotient.md R151). -/
def estimateRaw (u : Uint320) (v : Uint256) (n j : Nat) : Nat :=
  topTwo u n j / (v.limb (n - 1)).toNat

/-- The classic estimate, clamped to `2^64 - 1` (42_trial_quotient.md R151). -/
def estimate (u : Uint320) (v : Uint256) (n j : Nat) : Nat :=
  min (estimateRaw u v n j) (2 ^ 64 - 1)

/-- The form that needs only a 64-bit quotient (42_trial_quotient.md R152). -/
def estimateClamped (u : Uint320) (v : Uint256) (n j : Nat) : Nat :=
  if u.limb (j + n) = v.limb (n - 1) then 2 ^ 64 - 1 else estimateRaw u v n j

/-- The loop of the two-limb pretest on `(qhat, rhat)` (42_trial_quotient.md R155). It has at most `fuel`
rounds; two are all a normalized divisor allows, for `rhat` grows by at least 2^63 each round
(assumption 18). -/
def pretestLoop (vTop vNext uNext : Nat) : Nat → Nat × Nat → Nat × Nat
  | 0, t => t
  | fuel + 1, t =>
    if t.2 < 2 ^ 64 ∧ t.1 * vNext > t.2 * 2 ^ 64 + uNext then
      pretestLoop vTop vNext uNext fuel (t.1 - 1, t.2 + vTop)
    else t

/-- The two-limb pretest after the classic estimate: `(qhat, rhat)` at its exit (42_trial_quotient.md
R155). -/
def pretested (u : Uint320) (v : Uint256) (n j : Nat) : Nat × Nat :=
  pretestLoop (v.limb (n - 1)).toNat (v.limb (n - 2)).toNat (u.limb (j + n - 2)).toNat 2
    (estimate u v n j, topTwo u n j - estimate u v n j * (v.limb (n - 1)).toNat)

/-- The pretest runs: `ESTIMATOR_PRETEST` is `TWO_LIMB`. It reads `v[n-2]`, which a one-limb divisor has
not, so it is left out there (40_divmod.md R114, assumption 24). -/
def pretestRuns (pretest : Pretest) (n : Nat) : Bool :=
  decide (pretest = .twoLimb) && decide (2 ≤ n)

/-- The trial digit handed to the refiner (42_trial_quotient.md R151, R155). -/
def trialDigit (pretest : Pretest) (u : Uint320) (v : Uint256) (n j : Nat) : Nat :=
  if pretestRuns pretest n then (pretested u v n j).1 else estimate u v n j

/-- The estimator at step `j`: it writes `qhat`, and `rhat` under the pretest (42_trial_quotient.md
R150). -/
def runEstimator (pretest : Pretest) (n j : Nat) (dp : Datapath) : Datapath :=
  { dp with
    qhat := BitVec.ofNat 64 (trialDigit pretest dp.u dp.v n j)
    rhat := if pretestRuns pretest n then BitVec.ofNat 65 (pretested dp.u dp.v n j).2 else dp.rhat }

end Sys2Proof.Machine
end

