-- ==== Sys2Proof/Machine/Refiner.lean ====
section
/-! DEFINITION. The correction-step refiner, the multiply-subtract datapath and the digit loop
(43_correction_refiner.md R170 to R184). -/

namespace Sys2Proof.Machine

/-! ### Correction steps -/

/-- The product carry into limb `k` of `qhat * v` (43_correction_refiner.md R182). -/
def productCarry (qhat : Word) (v : Uint256) : Nat → Nat
  | 0 => 0
  | k + 1 => hi64 (qhat.toNat * (v.limb k).toNat + productCarry qhat v k)

/-- `P[k]`, limb `k` of the `n + 1` limbs of `qhat * Vn` (43_correction_refiner.md R182). -/
def productLimb (qhat : Word) (v : Uint256) (n k : Nat) : Nat :=
  if k < n then lo64 (qhat.toNat * (v.limb k).toNat + productCarry qhat v k)
  else productCarry qhat v n

/-- Limb arrays compared from index `count - 1` down: the first is greater (43_correction_refiner.md
R182). -/
def limbsGreater (x y : Nat → Nat) : Nat → Bool
  | 0 => false
  | k + 1 => if x k = y k then limbsGreater x y k else decide (y k < x k)

/-- "The product exceeds the working value": `qhat * Vn > W`, at limb level (43_correction_refiner.md
R172, R182). -/
def productExceeds (qhat : Word) (u : Uint320) (v : Uint256) (n j : Nat) : Bool :=
  limbsGreater (productLimb qhat v n) (fun k => (u.limb (j + k)).toNat) (n + 1)

/-- Correction steps: at most `fuel` conditional decrements of `qhat` (43_correction_refiner.md R172). -/
def refineLoop (n j : Nat) : Nat → Datapath → Datapath
  | 0, dp => dp
  | fuel + 1, dp =>
    if productExceeds dp.qhat dp.u dp.v n j then
      refineLoop n j fuel { dp with qhat := dp.qhat - 1, corr := dp.corr + 1 }
    else dp

/-- The refiner: `MAX_CORRECTIONS` = 2 conditional decrements, a third being unreachable
(43_correction_refiner.md R173, assumption 17). -/
def refine (n j : Nat) (dp : Datapath) : Datapath :=
  refineLoop n j 2 { dp with corr := 0 }

/-! ### Multiply-subtract -/

/-- One limb of the multiply-subtract (43_correction_refiner.md R175): the product keeps all 128 bits, the
difference wraps modulo 2^64 and passes a borrow (R176). -/
def mulSubLimb (j k : Nat) (dp : Datapath) : Datapath :=
  let p : Nat := dp.qhat.toNat * (dp.v.limb k).toNat + dp.carry.toNat
  let t : Int := (dp.u.limb (j + k)).toNat - lo64 p - dp.borrow.toNat
  { dp with
    p := BitVec.ofNat 128 p
    carry := BitVec.ofNat 64 (hi64 p)
    t := BitVec.ofInt 128 t
    borrow := decide (t < 0)
    u := dp.u.setLimb (j + k) (BitVec.ofInt 64 t) }

/-- The first `k` limbs of the multiply-subtract. -/
def mulSubLimbs (j : Nat) (dp : Datapath) : Nat → Datapath
  | 0 => { dp with carry := 0, borrow := false }
  | k + 1 => mulSubLimb j k (mulSubLimbs j dp k)

/-- The top limb of the multiply-subtract: the carry and the borrow leave it (43_correction_refiner.md
R175). -/
def mulSubTop (n j : Nat) (dp : Datapath) : Datapath :=
  let t : Int := (dp.u.limb (j + n)).toNat - dp.carry.toNat - dp.borrow.toNat
  { dp with
    t := BitVec.ofInt 128 t
    borrow := decide (t < 0)
    u := dp.u.setLimb (j + n) (BitVec.ofInt 64 t) }

/-- `MulSub(u, v, n, j, qhat)` (43_correction_refiner.md R175). There is no add-back (R177). -/
def mulSub (n j : Nat) (dp : Datapath) : Datapath :=
  mulSubTop n j (mulSubLimbs j dp n)

/-! ### The digit loop -/

/-- One step of the digit loop: estimate, refine, multiply-subtract, record the digit
(43_correction_refiner.md R180). `none` is a final borrow of 1, the unreachable InternalBorrow of R177. -/
def digitStep (pretest : Pretest) (n j : Nat) (dp : Datapath) : Option Datapath :=
  let dp' := mulSub n j (refine n j (runEstimator pretest n j { dp with j := BitVec.ofNat 2 j }))
  if dp'.borrow then none
  else some { dp' with qd := dp'.qd.setLimb j dp'.qhat }

/-- The steps `j` down to 0 (43_correction_refiner.md R180). -/
def digitLoop (pretest : Pretest) (n : Nat) : Nat → Datapath → Option Datapath
  | 0, dp => digitStep pretest n 0 dp
  | j + 1, dp =>
    match digitStep pretest n (j + 1) dp with
    | none => none
    | some dp' => digitLoop pretest n j dp'

end Sys2Proof.Machine
end

