-- ==== Sys2Proof/Machine/Divide.lean ====
section
/-! DEFINITION. Path selection, the fast paths, the single-limb division and the general path
(40_divmod.md R104 to R110). Each path gives the quotient and the remainder as numbers and leaves the
datapath state as its writes left it. -/

namespace Sys2Proof.Machine

/-- What a path returns: the pair (Q, R) and the datapath state it leaves. -/
structure DivResult where
  quotient : Nat
  remainder : Nat
  datapath : Datapath
  deriving DecidableEq, Repr

/-- `FastGreater(D, V)` (40_divmod.md R105). -/
def fastGreater (D : Uint256) (dp : Datapath) : DivResult :=
  { quotient := 0, remainder := D.val, datapath := dp }

/-- `FastEqual()` (40_divmod.md R108). -/
def fastEqual (dp : Datapath) : DivResult :=
  { quotient := 1, remainder := 0, datapath := dp }

/-- One limb of the single-limb division: the running remainder and limb `i` of the dividend, divided by
`d` (40_divmod.md R106). -/
def singleLimbStep (D : Uint256) (d : Word) (i : Nat) (dp : Datapath) : Datapath :=
  let t : Nat := dp.r.toNat * 2 ^ 64 + (D.limb i).toNat
  { dp with
    t := BitVec.ofNat 128 t
    qd := dp.qd.setLimb i (BitVec.ofNat 64 (t / d.toNat))
    r := BitVec.ofNat 64 (t % d.toNat) }

/-- The datapath after the four limbs, from the most significant down (40_divmod.md R106). -/
def singleLimbRun (D : Uint256) (d : Word) (dp : Datapath) : Datapath :=
  singleLimbStep D d 0 (singleLimbStep D d 1 (singleLimbStep D d 2 (singleLimbStep D d 3
    { dp with r := 0 })))

/-- `SingleLimb(D, d)` (40_divmod.md R106). -/
def singleLimb (D : Uint256) (d : Word) (dp : Datapath) : DivResult :=
  let dp' := singleLimbRun D d dp
  { quotient := dp'.qd.val, remainder := dp'.r.toNat, datapath := dp' }

/-- `qd[j] := 0` for `j` from `low` to 3 (40_divmod.md R109). -/
def clearDigits (qd : Uint256) (low : Nat) : Uint256 :=
  { w0 := if low ≤ 0 then 0 else qd.w0
    w1 := if low ≤ 1 then 0 else qd.w1
    w2 := if low ≤ 2 then 0 else qd.w2
    w3 := if low ≤ 3 then 0 else qd.w3 }

/-- `General(D, V)` (40_divmod.md R109): the counts and the shift are read back from the datapath
registers the normalizer wrote. `none` is the unreachable InternalBorrow (43_correction_refiner.md
R177). -/
def general (pretest : Pretest) (D V : Uint256) (dp : Datapath) : Option DivResult :=
  let start := normalize D V dp
  let n := start.n.toNat
  let m := start.m.toNat
  match digitLoop pretest n (m - n) start with
  | none => none
  | some last =>
    let qd := clearDigits last.qd (m - n + 1)
    some
      { quotient := qd.val
        remainder := (denormalize last.u n last.s.toNat).val
        datapath := { last with qd := qd } }

/-- `Divide(D, V)` for a nonzero divisor: the path tests in the spec's order (40_divmod.md R104). -/
def divide (pretest : Pretest) (D V : Uint256) (dp : Datapath) : Option DivResult :=
  if D.val < V.val then some (fastGreater D dp)
  else if nlimbs V = 1 then some (singleLimb D (V.limb 0) dp)
  else if D = V then some (fastEqual dp)
  else general pretest D V dp

end Sys2Proof.Machine
end

