-- ==== Sys2Proof/Machine/Divmod.lean ====
section
/-! DEFINITION. The meaning of the one command, DIVMOD (40_divmod.md R100 to R103, R116, R119). -/

namespace Sys2Proof.Machine

/-- DIVMOD, one indivisible step (40_divmod.md R103): it reads A and B, and writes Q, RM and STATUS. A zero
divisor raises DivisionByZero for every dividend (R119). With an operand register unwritten since reset it is
the fault of 10_state.md R35 where the configuration says `fault`, and divides what A and B hold where it says
`goOn` (assumption 4). -/
def execDivmod (s : State) : Host.Outcome State Fault Refusal :=
  if s.operandsReady then
    if s.b.val = 0 then .next s.divisionByZero
    else
      match divide s.config.pretest s.a s.b s.datapath with
      | some res => .next (s.writeResult res.quotient res.remainder)
      | none => .fault .internalBorrow
  else .fault .unwrittenOperand

end Sys2Proof.Machine
end

