-- ==== Sys2Proof/Machine/HostAccess.lean ====
section
/-! DEFINITION. Host accesses (20_memory.md R51 to R58, 30_encoding.md R72 to R74): the access check, then
the command decode, then the command (60_exceptions.md R207), and the reply to the host. -/

namespace Sys2Proof.Machine

/-- `Command(w)` (30_encoding.md R72): a defined command runs, every other word is IllegalCommand
(60_exceptions.md R204). -/
def issueCommand (w : Word) (s : State) : Host.Outcome State Fault Refusal :=
  match decode w with
  | .ok i => exec i s
  | .error _ => .next s.illegalCommand

/-- `RegWrite(idx, v)` (20_memory.md R56). -/
def regWrite (idx : RegIndex) (v : Word) (s : State) : Host.Outcome State Fault Refusal :=
  if idx.toNat < 8 then .next (s.writeOperand idx.toNat v)
  else if idx.toNat = 16 then issueCommand v s
  else .fault (.accessError (.register idx))

/-- The reply to a write that completes. -/
def replyDone (host : Nat) (o : Host.Outcome State Fault Refusal) :
    Host.Outcome State Fault Refusal :=
  match o with
  | .next t => .next (t.respond host .done)
  | .fault f => .fault f
  | .refused r => .refused r

/-- A read access: the value goes to the host as `form` gives it, and nothing else changes
(20_memory.md R55, R58). -/
def readAccess (host : Nat) (form : Word → Reply) (idx : RegIndex) (s : State) :
    Host.Outcome State Fault Refusal :=
  match regRead s idx with
  | .ok w => .next (s.respond host (form w))
  | .error f => .fault f

/-- A write access: the register write, then completion to the host. -/
def writeAccess (host : Nat) (idx : RegIndex) (v : Word) (s : State) :
    Host.Outcome State Fault Refusal :=
  replyDone host (regWrite idx v s)

/-- Where a bus access of `size` bytes at byte address `addr` goes. -/
inductive BusTarget where
  /-- No byte of the window: the platform's (20_memory.md R51). -/
  | outside
  /-- The window, with a wrong size or alignment (20_memory.md R52). -/
  | malformed
  /-- A register. -/
  | register (idx : RegIndex)
  deriving DecidableEq, Repr

/-- An access reaches the window when one of its bytes, or its address where it has no byte, lies in
`DIV_BASE .. DIV_BASE + 255` (20_memory.md R51, assumption 14). -/
def reachesWindow (base addr size : Nat) : Bool :=
  decide (base < addr + max size 1) && decide (addr < base + 256)

/-- The byte-offset view (20_memory.md R51, R52): register `idx` is the aligned eight bytes at
`DIV_BASE + 8 idx`. -/
def busTarget (c : Config) (addr size : Nat) : BusTarget :=
  if reachesWindow c.divBase addr size then
    if size = 8 ∧ addr % 8 = 0 then .register (BitVec.ofNat 5 ((addr - c.divBase) / 8))
    else .malformed
  else .outside

/-- One host access, performed whole (20_memory.md R57, R60). -/
def performAccess (host : Nat) (a : Access) (s : State) : Host.Outcome State Fault Refusal :=
  match a with
  | .read idx => readAccess host .data idx s
  | .write idx v => writeAccess host idx v s
  | .busRead addr size =>
    match busTarget s.config addr size with
    | .register idx => readAccess host (fun w => .bytes (bytesOfWord w)) idx s
    | .malformed => .fault (.accessError (.malformed addr size))
    | .outside => .refused (.outsideWindow addr size)
  | .busWrite addr data =>
    match busTarget s.config addr data.length with
    | .register idx => writeAccess host idx (wordOfBytes data) s
    | .malformed => .fault (.accessError (.malformed addr data.length))
    | .outside => .refused (.outsideWindow addr data.length)

/-- The next event at the port: an access, or reset (70_reset_and_hazards.md R231). -/
def performEvent (e : Event) (s : State) : Host.Outcome State Fault Refusal :=
  match e with
  | .access host a => performAccess host a s
  | .reset => .next s.resetUnit

/-- One step of the unit: the next event of the port, taken off it and performed whole before the next
(20_memory.md R60, 70_reset_and_hazards.md R237). With nothing at the port the unit does nothing and holds
its registers (60_exceptions.md R217). -/
def portStep (s : State) : Host.Outcome State Fault Refusal :=
  match s.port with
  | [] => .next s
  | e :: rest => performEvent e (s.setPort rest)

/-- The register index of CMD (10_state.md R26). -/
def cmdIndex : RegIndex := 16

/-- The command word of `nbits` bits `w`, as a host's write of CMD next at the port. -/
def commandEvent (nbits w : Nat) : Event :=
  .access 0 (.write cmdIndex (BitVec.ofNat 64 (w % 2 ^ nbits)))

end Sys2Proof.Machine
end

