-- ==== Sys2Proof/Machine/Step.lean ====
section
/-! DEFINITION. The step of the machine and the place a command word comes from: the write of CMD that is
next at the port (10_state.md R26, R30; there is no program counter). -/

namespace Sys2Proof.Machine

/-- One step (Machine/HostAccess.lean, `portStep`). -/
def step (s : State) : Host.Outcome State Fault Refusal := portStep s

/-- `s` with a write of the command word next at the port, before what already waits there. -/
def State.withFetchWord (s : State) (nbits w : Nat) : State :=
  s.setPort (commandEvent nbits w :: s.port)

end Sys2Proof.Machine
end

