-- ==== Sys2Proof/Laws/PerInstr.lean ====
section
/-! SUPPORT. Statements about every instruction as syntax, one lemma per constructor. The family `RoundTrip`:
a well-formed command is what the decoder reads from its command word. -/

namespace Sys2Proof.Laws.RoundTrip

/-- The decoder reads the command back from its command word, and from its bytes in increasing address
order. -/
def Statement (i : Instr) : Prop :=
  i.wellFormed = true →
    decode (encode i) = .ok i ∧ decodeBytes (bytesOfWord (encode i)) = .ok i

theorem divmod : Statement .divmod := fun _ => ⟨rfl, rfl⟩

end Sys2Proof.Laws.RoundTrip
end

