-- ==== Sys2Proof/Machine/Assembler.lean ====
section
/-! DEFINITION. Host program lines and the register accesses they stand for (30_encoding.md R73, R78, R79).
They are the host's, no commands of the unit; host control flow and arithmetic are not modelled. -/

namespace Sys2Proof.Machine

/-- `index(reg)` (10_state.md R21, 30_encoding.md R73). -/
def regIndex : Reg → RegIndex
  | .a0 => 0
  | .a1 => 1
  | .a2 => 2
  | .a3 => 3
  | .b0 => 4
  | .b1 => 5
  | .b2 => 6
  | .b3 => 7
  | .q0 => 8
  | .q1 => 9
  | .q2 => 10
  | .q3 => 11
  | .rm0 => 12
  | .rm1 => 13
  | .rm2 => 14
  | .rm3 => 15
  | .cmd => 16
  | .status => 17
  | .idx k => BitVec.ofNat 5 k

/-- The base index of a register group; limb `k` is at base + `k` (30_encoding.md R73). -/
def groupBase : Group → Nat
  | .a => 0
  | .b => 4
  | .q => 8
  | .rm => 12

/-- The index of limb `k` of a group (30_encoding.md R73). -/
def limbIndex (g : Group) (k : Nat) : RegIndex := BitVec.ofNat 5 (groupBase g + k)

/-- The command write (30_encoding.md R78). -/
def divmodAccess : Access := .write cmdIndex (encode .divmod)

/-- `LD256` (30_encoding.md R79): the four limb writes, least significant first. -/
def ld256 (g : Group) (x : Nat) : List Access :=
  [.write (limbIndex g 0) (limbOfNat x 0), .write (limbIndex g 1) (limbOfNat x 1),
   .write (limbIndex g 2) (limbOfNat x 2), .write (limbIndex g 3) (limbOfNat x 3)]

/-- `RD256` (30_encoding.md R79): the four limb reads, least significant first. -/
def rd256 (g : Group) : List Access :=
  [.read (limbIndex g 0), .read (limbIndex g 1), .read (limbIndex g 2), .read (limbIndex g 3)]

/-- The accesses of a line (30_encoding.md R78, R79). -/
def expandLine : Line → List Access
  | .wr r imm => [.write (regIndex r) (BitVec.ofNat 64 imm)]
  | .rd r => [.read (regIndex r)]
  | .divmod => [divmodAccess]
  | .ld256 g imm => ld256 g imm
  | .rd256 g => rd256 g
  | .calldiv d v => ld256 .a d ++ ld256 .b v ++ [divmodAccess, .read (regIndex .status)]

/-- The accesses as one host issues them, in order (20_memory.md R60). -/
def issueBy (host : Nat) (as : List Access) : List Event := as.map (Event.access host)

end Sys2Proof.Machine
end

