-- ==== Sys2Proof/Machine/Platform.lean ====
section
/-! DEFINITION. A platform of `INSTANCES` units (60_exceptions.md R215): each has its own registers and its
own window, and they share no state. -/

namespace Sys2Proof.Machine

/-- The units of a platform; `INSTANCES` is their number. -/
structure Platform where
  units : List State
  deriving DecidableEq, Repr

/-- The windows of the units do not overlap: no two have the same `DIV_BASE` (60_exceptions.md R215; the
windows are aligned blocks of 256 bytes). -/
def Platform.wellPlaced (p : Platform) : Bool :=
  decide (p.units.map fun s => s.config.windowBlock).Nodup

/-- One step of unit `k`; a number no unit has leaves the platform as it is. -/
def Platform.stepUnit (p : Platform) (k : Nat) : Host.Outcome Platform Fault Refusal :=
  match p.units[k]? with
  | none => .next p
  | some s =>
    match step s with
    | .next t => .next { p with units := p.units.set k t }
    | .fault f => .fault f
    | .refused r => .refused r

end Sys2Proof.Machine
end

