-- ==== Sys2Proof/Safety.lean ====
section
/-! DEFINITION. The terms claims are stated in: what a safe step is, the access rights of the register map,
which events can change which registers, the use of unwritten operand registers, and the invariants of the
machine. -/

namespace Sys2Proof.Machine

/-- The next step neither faults nor is refused. -/
def StepSafe (s : State) : Prop := ∃ t, step s = .next t

/-- `k` steps run without a fault or a refusal. -/
def RunSafe (k : Nat) (s : State) : Prop := ∃ t, Host.Core.run Sys2Proof.core k s = .next t

/-- The register map gives a host the right to read `idx` (10_state.md R21). -/
def readRight (idx : RegIndex) : Bool := decide (idx.toNat < 16) || decide (idx.toNat = 17)

/-- The register map gives a host the right to write `idx` (10_state.md R21). -/
def writeRight (idx : RegIndex) : Bool := decide (idx.toNat < 8) || decide (idx.toNat = 16)

/-- The register an event reads, if it is a well-formed read access. -/
def readIndex (c : Config) : Event → Option RegIndex
  | .access _ (.read idx) => some idx
  | .access _ (.busRead addr size) =>
    match busTarget c addr size with
    | .register idx => some idx
    | .malformed => none
    | .outside => none
  | .access _ (.write _ _) => none
  | .access _ (.busWrite _ _) => none
  | .reset => none

/-- The register an event writes and the value, if it is a well-formed write access. -/
def writtenWord (c : Config) : Event → Option (RegIndex × Word)
  | .access _ (.write idx v) => some (idx, v)
  | .access _ (.busWrite addr data) =>
    match busTarget c addr data.length with
    | .register idx => some (idx, wordOfBytes data)
    | .malformed => none
    | .outside => none
  | .access _ (.read _) => none
  | .access _ (.busRead _ _) => none
  | .reset => none

/-- The register index an event writes, if it is a well-formed write access. -/
def writtenIndex (c : Config) (e : Event) : Option RegIndex := (writtenWord c e).map Prod.fst

/-- What 10_state.md R35 calls the use of an operand register that nothing has written since reset. -/
inductive UnwrittenUse where
  /-- UnwrittenRegister: a host reads it. -/
  | register (idx : RegIndex)
  /-- UnwrittenOperand: a DIVMOD uses it. -/
  | operand
  deriving DecidableEq, Repr

/-- The use of 10_state.md R35 that event `e` makes with the written-ness `k`. -/
def unwrittenUseOf (c : Config) (k : OperandMarks) (e : Event) : Option UnwrittenUse :=
  match readIndex c e, writtenWord c e with
  | some idx, _ =>
    if idx.toNat < 8 ∧ k.isWritten idx.toNat = false then some (.register idx) else none
  | none, some (idx, w) =>
    if idx = cmdIndex ∧ decode w = .ok .divmod ∧ k.all = false then some .operand else none
  | none, none => none

/-- The use of an unwritten operand register that the next step makes (10_state.md R35, 20_memory.md R55,
40_divmod.md R103, 70_reset_and_hazards.md R236). Such a step is R35's fault where `Config.onUnspecified` is
`fault`, and goes on where it is `goOn` (assumption 4). -/
def State.unwrittenUse (s : State) : Option UnwrittenUse :=
  match s.port with
  | [] => none
  | e :: _ => unwrittenUseOf s.config s.written e

/-- The event is a command write or reset: the only events that may change STATUS, Q or RM. -/
def changesResults (c : Config) (e : Event) : Bool :=
  decide (e = .reset) || decide (writtenIndex c e = some cmdIndex)

/-- The event is a write of an operand register or reset: the only events that may change A or B. -/
def changesOperands (c : Config) (e : Event) : Bool :=
  decide (e = .reset) ||
    match writtenIndex c e with
    | some idx => decide (idx.toNat < 8)
    | none => false

/-- Q and RM hold the quotient and the remainder of some dividend by some nonzero divisor
(10_state.md R24, R25, 40_divmod.md R102). -/
def HoldsResult (s : State) : Prop :=
  ∃ D V : Nat, D < 2 ^ 256 ∧ V < 2 ^ 256 ∧ 0 < V ∧ s.q.val = D / V ∧ s.rm.val = D % V

/-- The invariant of the machine: STATUS is legal (10_state.md R29), Q and RM hold a result while
STATUS.VALID = 1 (R24). -/
def Inv (s : State) : Prop :=
  statusLegal s.status = true ∧ (statusValid s.status = true → HoldsResult s)

/-- The outcome STATUS records is that of operands a host wrote: once a DIVMOD has run, all eight operand
registers are written (70_reset_and_hazards.md R236). -/
def OutcomeFromWritten (s : State) : Prop :=
  statusValid s.status = true ∨ statusDbz s.status = true → s.written.all = true

/-- `W = Val(u[j..j+n])`, the working value of step `j` (43_correction_refiner.md R170). -/
def workingValue (u : Uint320) (n j : Nat) : Nat := valSlice u.limb j (n + 1)

/-- `Vn = Val(v[0..n-1])`, the normalized divisor (43_correction_refiner.md). -/
def divisorValue (v : Uint256) (n : Nat) : Nat := valSlice v.limb 0 n

/-- What holds at the start of step `j` of the digit loop: the limbs the step uses exist, the divisor is
normalized (41_normalizer.md R134), and the remainder so far is below it (43_correction_refiner.md
R171). -/
def DigitReady (u : Uint320) (v : Uint256) (n j : Nat) : Prop :=
  1 ≤ n ∧ j + n ≤ 4 ∧ 2 ^ 63 ≤ (v.limb (n - 1)).toNat ∧
    valSlice u.limb (j + 1) n < divisorValue v n

end Sys2Proof.Machine
end

