-- ==== Sys2Proof/Certificates/Slice0/Obligations.lean ====
section
/-! DEFINITION. The statements for the provers. Each docstring names the sentence of spec/ it formalises, or
says what it is inferred from. Free values (assumptions 5 and 6) appear in no statement. `s.operandsReady`,
`s.operandReadable i` and `s.resultReadable` are the model's own conditions (assumptions 4 and 7): they hold in
every state whose configuration uses unspecified values as the hardware does (`goOn`), and otherwise where the
operands are written since reset (10_state.md R35) and where STATUS.VALID = 1 (R24). -/

open Sys2Proof Sys2Proof.Machine

/-! ### Command words -/

/-- 30_encoding.md R72: the word with OPC 0x01 and RSV zero, which is 0x0000000000000001, runs DIVMOD, and
every other word is IllegalCommand. -/
def Obligations.CommandDecodedByOpcodeAndReserved : Prop :=
  ∀ (w : Word) (s : State),
    (w.extractLsb' 8 56 = 0 ∧ w.extractLsb' 0 8 = 0x01 → issueCommand w s = exec .divmod s) ∧
    (¬ (w.extractLsb' 8 56 = 0 ∧ w.extractLsb' 0 8 = 0x01) →
      issueCommand w s = .next s.illegalCommand) ∧
    ((w.extractLsb' 8 56 = 0 ∧ w.extractLsb' 0 8 = 0x01) ↔ w = 0x0000000000000001)

/-- Inferred from 30_encoding.md R71, R72 and R80 (which the spec marks as derived): the decoder reads each
command back from its word, accepts no other word, and agrees with the one-row opcode table. -/
def Obligations.DecoderAcceptsExactlyEncodedCommands : Prop :=
  (∀ i : Instr, Laws.RoundTrip.Statement i) ∧
  (∀ (w : Word) (i : Instr), decode w = .ok i ↔ w = encode i) ∧
  (∀ (w : Word) (i : Instr),
    decode w = .ok i ↔ ∃ row ∈ opcodeTable, w &&& row.mask = row.pattern ∧ row.instr = i)

/-- Sanity, from 30_encoding.md R71 and the illegal words of 95_test_vectors.md I11. The spec says that these
words are illegal; the names undefinedOpcode and reservedBits, and which of the two a word gets, are the
model's choice (assumption 22). -/
def Obligations.SampleCommandWordsDecode : Prop :=
  decode 0x0000000000000001 = .ok .divmod ∧
  decodeBytes [0x01, 0x00, 0x00, 0x00, 0x00, 0x00, 0x00, 0x00] = .ok .divmod ∧
  decodeTableWord 64 1 = some .divmod ∧
  encode .divmod = 0x0000000000000001 ∧
  decode 0x0000000000000000 = .error (.undefinedOpcode 0x00) ∧
  decode 0x0000000000000002 = .error (.undefinedOpcode 0x02) ∧
  decode 0x00000000000000ff = .error (.undefinedOpcode 0xff) ∧
  decode 0x0000000000000101 = .error .reservedBits ∧
  decode 0x8000000000000001 = .error .reservedBits ∧
  decode 0xffffffffffffffff = .error .reservedBits ∧
  decodeTableWord 64 0x101 = none

/-! ### Steps -/

/-- Inferred from 10_state.md R26, 30_encoding.md R72 and 20_memory.md R51: when the next event at the port
writes a word to CMD, by index or as eight bytes of the byte-offset view, and the word decodes to the
command `i`, the step is `exec i` at that state with the event taken off the port, followed by the reply
to the host. -/
def Obligations.StepRunsTheDecodedCommand : Prop :=
  ∀ (s : State) (host : Nat) (w : Word) (rest : List Event) (i : Instr),
    decode w = .ok i →
    (s.port = .access host (.write cmdIndex w) :: rest →
      step s = replyDone host (exec i (s.setPort rest))) ∧
    (s.port = .access host (.busWrite (s.config.divBase + 128) (bytesOfWord w)) :: rest →
      step s = replyDone host (exec i (s.setPort rest)))

/-- The model's own interface (assumption 12): a command word placed by `withFetchWord` is the very next
command to run, and nothing else of the state changes. -/
def Obligations.PlacedCommandWordRunsNext : Prop :=
  ∀ s : State,
    step (s.withFetchWord 64 0x0000000000000001) = replyDone 0 (exec .divmod s) ∧
    (∀ w, w < 2 ^ 64 → w ≠ 0x0000000000000001 →
      step (s.withFetchWord 64 w) = replyDone 0 (.next s.illegalCommand))

/-- 60_exceptions.md R204: an illegal command word sets STATUS.ILLCMD, leaves the other STATUS fields, the
results and the operands unchanged, and the write completes. Nothing is said here of the internal state
(assumption 20, IllegalCommandKeepsTheInternalState). -/
def Obligations.IllegalCommandRecordsOnlyIllcmd : Prop :=
  ∀ (s : State) (host : Nat) (w : Word) (rest : List Event),
    s.port = .access host (.write cmdIndex w) :: rest → w ≠ 0x0000000000000001 →
    ∃ t, step s = .next t ∧
      statusIllcmd t.status = true ∧
      statusValid t.status = statusValid s.status ∧ statusDbz t.status = statusDbz s.status ∧
      t.q = s.q ∧ t.rm = s.rm ∧ t.a = s.a ∧ t.b = s.b ∧
      t.written = s.written ∧ t.config = s.config ∧ t.port = rest ∧
      t.responses = { host := host, reply := .done } :: s.responses

/-- Inferred from 60_exceptions.md R217: "Between commands it does nothing and holds its registers." An
empty port is the model's form of it, and that State.reset has one is the model's choice (assumption
12). -/
def Obligations.IdlePortHoldsTheState : Prop :=
  State.reset.port = [] ∧ ∀ s : State, s.port = [] → step s = .next s

/-- Inferred from 20_memory.md R60: "Host accesses are performed one at a time, in the order the host
issues them". Every step takes exactly the next event off the port, adds at most one reply, and never
changes the open parameters (00_scope.md R6). For a reset event, that the waiting accesses, the replies and
the parameters stay is the model's choice (assumption 13). -/
def Obligations.StepTakesExactlyTheNextEvent : Prop :=
  ∀ s t : State, step s = .next t →
    t.port = s.port.tail ∧ t.config = s.config ∧
    (t.responses = s.responses ∨ ∃ r, t.responses = r :: s.responses)

/-- Inferred from 70_reset_and_hazards.md R230 and R231: "Either way the state after reset is that of rule
R230." From every state, reset clears STATUS and marks every operand register unwritten, so that no
result is there; where unspecified values fault, every read of Q or RM is ResultNotValid (10_state.md R24,
assumption 7). The accesses still waiting, the replies given and the parameters stay (assumption 13, the
model's choice). -/
def Obligations.ResetEventClearsStatusAndMarks : Prop :=
  ∀ (s : State) (rest : List Event), s.port = .reset :: rest →
    ∃ t, step s = .next t ∧ t.status = 0x0000000000000000 ∧
      (∀ i, t.written.isWritten i = false) ∧
      (s.config.onUnspecified = .fault → ∀ idx : RegIndex, 8 ≤ idx.toNat → idx.toNat < 16 →
        regRead t idx = .error (.resultNotValid idx)) ∧
      t.config = s.config ∧ t.port = rest ∧ t.responses = s.responses

/-- 70_reset_and_hazards.md R230: after reset STATUS is zero, every operand register is marked unwritten and
there is no result (STATUS.VALID = 0), so that under every configuration in which unspecified values fault a
read of Q or RM is ResultNotValid (10_state.md R24, assumption 7). Its "No command is in progress after reset" needs no clause: a command is one step
(R237), so no state holds one in progress. -/
def Obligations.ResetLeavesStatusZeroAndNoResult : Prop :=
  State.reset.status = 0x0000000000000000 ∧
  statusValid State.reset.status = false ∧ statusDbz State.reset.status = false ∧
  statusIllcmd State.reset.status = false ∧
  (∀ i, State.reset.written.isWritten i = false) ∧
  (∀ c : Config, c.onUnspecified = .fault → ∀ idx : RegIndex, 8 ≤ idx.toNat → idx.toNat < 16 →
    regRead { State.reset with config := c } idx = .error (.resultNotValid idx))

/-! ### Register accesses -/

/-- Inferred from 20_memory.md R55 (its pseudocode, and its sentence "A read has no side effect", which the
spec marks as derived): what each register reads as, and that the read adds its reply and changes
nothing else. The faults of R55's "model:" lines are those of states whose configuration takes them
(assumptions 4 and 7). -/
def Obligations.ReadReturnsTheRegisterAndChangesNothing : Prop :=
  ∀ (s : State) (host : Nat) (idx : RegIndex) (rest : List Event),
    s.port = .access host (.read idx) :: rest →
    (idx.toNat < 8 → s.operandReadable idx.toNat = true →
      step s = .next ((s.setPort rest).respond host (.data (s.cell idx.toNat)))) ∧
    (idx.toNat < 8 → s.operandReadable idx.toNat = false →
      step s = .fault (.unwrittenRegister idx)) ∧
    (8 ≤ idx.toNat → idx.toNat < 16 → s.resultReadable = true →
      step s = .next ((s.setPort rest).respond host (.data (s.cell idx.toNat)))) ∧
    (8 ≤ idx.toNat → idx.toNat < 16 → s.resultReadable = false →
      step s = .fault (.resultNotValid idx)) ∧
    (idx.toNat = 17 →
      step s = .next ((s.setPort rest).respond host (.data (statusRead s.status)))) ∧
    (idx.toNat = 16 ∨ 18 ≤ idx.toNat → step s = .fault (.accessError (.register idx)))

/-- Inferred from 10_state.md R27: a host reads STATUS as VALID in bit 0, DBZ in bit 1, ILLCMD in bit 2 and
zero in bits 63:3, in every state. -/
def Obligations.StatusReadsItsFieldsAndZeroAbove : Prop :=
  ∀ s : State, ∃ w : Word, regRead s 17 = .ok w ∧
    w.getLsbD 0 = statusValid s.status ∧ w.getLsbD 1 = statusDbz s.status ∧
    w.getLsbD 2 = statusIllcmd s.status ∧ (∀ k, 3 ≤ k → w.getLsbD k = false) ∧
    (statusLegal s.status = true → w = s.status)

/-- 20_memory.md R56: a write of an operand register changes that register and marks it written, and
nothing else; a write of CMD is the command; every other write is an AccessError. -/
def Obligations.WriteChangesOnlyItsOperandRegister : Prop :=
  ∀ (s : State) (host : Nat) (idx : RegIndex) (v : Word) (rest : List Event),
    s.port = .access host (.write idx v) :: rest →
    (idx.toNat < 8 → ∃ t, step s = .next t ∧
      t.cell idx.toNat = v ∧ (∀ k, k ≠ idx.toNat → t.cell k = s.cell k) ∧
      t.q = s.q ∧ t.rm = s.rm ∧ t.status = s.status ∧
      t.written.isWritten idx.toNat = true ∧
      (∀ k, k ≠ idx.toNat → t.written.isWritten k = s.written.isWritten k) ∧
      t.datapath = s.datapath ∧ t.freeDraws = s.freeDraws ∧ t.config = s.config ∧
      t.port = rest ∧ t.responses = { host := host, reply := .done } :: s.responses) ∧
    (idx.toNat = 16 → step s = replyDone host (issueCommand v (s.setPort rest))) ∧
    (8 ≤ idx.toNat → idx.toNat ≠ 16 → step s = .fault (.accessError (.register idx)))

/-- Inferred from 10_state.md R22 and R23: a host "may read back what it wrote", whatever else the state
holds. -/
def Obligations.OperandReadsBackWhatWasWritten : Prop :=
  ∀ (s : State) (idx : RegIndex) (v : Word), idx.toNat < 8 →
    regRead (s.writeOperand idx.toNat v) idx = .ok v

/-- Inferred from 20_memory.md R58 ("A write of an operand register is idempotent", marked as derived) and
from 30_encoding.md R79 ("The order of the four limb writes inside LD256 does not matter"): operand
writes are idempotent, and two of different registers commute. -/
def Obligations.OperandWritesAreIdempotentAndCommute : Prop :=
  ∀ (s : State) (i j : Nat) (v w : Word), i < 8 → j < 8 →
    (s.writeOperand i v).writeOperand i v = s.writeOperand i v ∧
    (i ≠ j → (s.writeOperand i v).writeOperand j w = (s.writeOperand j w).writeOperand i v)

/-- Inferred from 30_encoding.md R79: the four limb writes of LD256, in any order, load the whole operand,
mark its four registers written, and leave the other operand, the results and STATUS alone. -/
def Obligations.LoadOperandInAnyLimbOrder : Prop :=
  ∀ (s : State) (host x : Nat) (l : List Access) (rest : List Event), x < 2 ^ 256 →
    (l.Perm (ld256 .a x) → s.port = issueBy host l ++ rest →
      ∃ t, Host.Core.run core 4 s = .next t ∧ t.a.val = x ∧ t.b = s.b ∧ t.q = s.q ∧
        t.rm = s.rm ∧ t.status = s.status ∧ t.port = rest ∧
        (∀ i, t.written.isWritten i = (decide (i < 4) || s.written.isWritten i))) ∧
    (l.Perm (ld256 .b x) → s.port = issueBy host l ++ rest →
      ∃ t, Host.Core.run core 4 s = .next t ∧ t.b.val = x ∧ t.a = s.a ∧ t.q = s.q ∧
        t.rm = s.rm ∧ t.status = s.status ∧ t.port = rest ∧
        (∀ i, t.written.isWritten i =
          ((decide (4 ≤ i) && decide (i < 8)) || s.written.isWritten i)))

/-- 60_exceptions.md R205: every cause of an AccessError stops the run with that outcome. The last two
clauses take an access at an address of the window. -/
def Obligations.AccessErrorOnEveryListedCause : Prop :=
  ∀ (s : State) (host : Nat) (a : Access) (rest : List Event), s.port = .access host a :: rest →
    (a = .read 16 → step s = .fault (.accessError (.register 16))) ∧
    (∀ (idx : RegIndex) (v : Word), a = .write idx v → 8 ≤ idx.toNat → idx.toNat < 16 →
      step s = .fault (.accessError (.register idx))) ∧
    (∀ v : Word, a = .write 17 v → step s = .fault (.accessError (.register 17))) ∧
    (∀ idx : RegIndex, a = .read idx → 18 ≤ idx.toNat →
      step s = .fault (.accessError (.register idx))) ∧
    (∀ (idx : RegIndex) (v : Word), a = .write idx v → 18 ≤ idx.toNat →
      step s = .fault (.accessError (.register idx))) ∧
    (∀ addr size : Nat, a = .busRead addr size → s.config.divBase ≤ addr →
      addr < s.config.divBase + 256 → (size ≠ 8 ∨ addr % 8 ≠ 0) →
      step s = .fault (.accessError (.malformed addr size))) ∧
    (∀ (addr : Nat) (data : List Byte), a = .busWrite addr data → s.config.divBase ≤ addr →
      addr < s.config.divBase + 256 → (data.length ≠ 8 ∨ addr % 8 ≠ 0) →
      step s = .fault (.accessError (.malformed addr data.length)))

/-- 20_memory.md R51: eight bytes at `DIV_BASE + 8 idx` are register `idx`, read and written, for every
`DIV_BASE`, which is a multiple of 256; every other access at an address of the window is an
AccessError. -/
def Obligations.ByteOffsetViewIsTheRegisterMap : Prop :=
  ∀ (s : State) (host : Nat),
    256 ∣ s.config.divBase ∧
    (∀ idx : RegIndex,
      (∀ w, regRead s idx = .ok w →
        performAccess host (.busRead (s.config.divBase + 8 * idx.toNat) 8) s =
          .next (s.respond host (.bytes (bytesOfWord w)))) ∧
      (∀ f, regRead s idx = .error f →
        performAccess host (.busRead (s.config.divBase + 8 * idx.toNat) 8) s = .fault f) ∧
      (∀ v : Word,
        performAccess host (.busWrite (s.config.divBase + 8 * idx.toNat) (bytesOfWord v)) s =
          performAccess host (.write idx v) s)) ∧
    (∀ addr : Nat, s.config.divBase ≤ addr → addr < s.config.divBase + 256 →
      (∀ size : Nat, ¬ (size = 8 ∧ ∃ idx : RegIndex, addr = s.config.divBase + 8 * idx.toNat) →
        performAccess host (.busRead addr size) s =
          .fault (.accessError (.malformed addr size))) ∧
      (∀ data : List Byte,
        ¬ (data.length = 8 ∧ ∃ idx : RegIndex, addr = s.config.divBase + 8 * idx.toNat) →
        performAccess host (.busWrite addr data) s =
          .fault (.accessError (.malformed addr data.length))))

/-- The model's choice (assumption 14), where 20_memory.md R51 says "The platform decides `DIV_BASE` and
what lies outside the window": an access that touches no byte of the window is refused by name. -/
def Obligations.AccessOutsideTheWindowIsRefused : Prop :=
  ∀ (s : State) (host addr : Nat),
    (∀ size : Nat, addr + max size 1 ≤ s.config.divBase ∨ s.config.divBase + 256 ≤ addr →
      performAccess host (.busRead addr size) s = .refused (.outsideWindow addr size)) ∧
    (∀ data : List Byte,
      addr + max data.length 1 ≤ s.config.divBase ∨ s.config.divBase + 256 ≤ addr →
      performAccess host (.busWrite addr data) s = .refused (.outsideWindow addr data.length))

/-- 20_memory.md R54: byte `k` of a register is its bits `8k+7 : 8k`, bytes and register give each other
back, and byte `i` of a 256-bit value in a register group stands in register base + i / 8. -/
def Obligations.BytesOfARegisterAreLittleEndian : Prop :=
  (∀ (w : Word) (k : Nat), k < 8 → (bytesOfWord w)[k]? = some (w.extractLsb' (8 * k) 8)) ∧
  (∀ w : Word, (bytesOfWord w).length = 8 ∧ wordOfBytes (bytesOfWord w) = w) ∧
  (∀ bs : List Byte, bs.length = 8 → bytesOfWord (wordOfBytes bs) = bs) ∧
  (∀ (s : State) (i : Nat), i < 32 →
    (bytesOfWord (s.cell (0 + i / 8)))[i % 8]? = some (BitVec.ofNat 8 (s.a.val / 2 ^ (8 * i))) ∧
    (bytesOfWord (s.cell (4 + i / 8)))[i % 8]? = some (BitVec.ofNat 8 (s.b.val / 2 ^ (8 * i))) ∧
    (bytesOfWord (s.cell (8 + i / 8)))[i % 8]? = some (BitVec.ofNat 8 (s.q.val / 2 ^ (8 * i))) ∧
    (bytesOfWord (s.cell (12 + i / 8)))[i % 8]? = some (BitVec.ofNat 8 (s.rm.val / 2 ^ (8 * i))))

/-- Inferred from 60_exceptions.md R212: "Every host access is checked only by rule R205, never by who
makes it, and every register has the same rights for every host." Two hosts' same access ends alike, and
each host gets the same reply. Where the access is a DIVMOD the free values drawn are part of the equality,
which the model's choice makes equal for one and the same state (assumptions 5 and 6). -/
def Obligations.HostIdentityNeverMatters : Prop :=
  ∀ (h h' : Nat) (a : Access) (s : State),
    (∀ t, performAccess h a s = .next t →
      ∃ reply, t.responses = { host := h, reply := reply } :: s.responses ∧
        performAccess h' a s =
          .next { t with responses := { host := h', reply := reply } :: s.responses }) ∧
    (∀ f, performAccess h a s = .fault f → performAccess h' a s = .fault f) ∧
    (∀ r, performAccess h a s = .refused r → performAccess h' a s = .refused r)

/-- Inferred from 10_state.md R35 and 70_reset_and_hazards.md R236. Where unspecified values fault, a read of an
unwritten operand register is UnwrittenRegister and a DIVMOD with one UnwrittenOperand, and a step faults so
exactly when `State.unwrittenUse` says that it makes such a use; where they do not (the model's choice,
assumption 4: "The hardware would return or use whatever its register holds"), the register reads as what it
holds, DIVMOD completes, and no such step stops. -/
def Obligations.UnwrittenOperandsFaultExactlyWhereAsked : Prop :=
  ∀ s : State,
    (s.config.onUnspecified = .fault →
      (∀ idx : RegIndex, idx.toNat < 8 → s.written.isWritten idx.toNat = false →
        regRead s idx = .error (.unwrittenRegister idx)) ∧
      ((∃ i, i < 8 ∧ s.written.isWritten i = false) →
        exec .divmod s = .fault .unwrittenOperand) ∧
      ((∀ i, i < 8 → s.written.isWritten i = true) → ∃ t, exec .divmod s = .next t) ∧
      (∀ idx, step s = .fault (.unwrittenRegister idx) ↔
        s.unwrittenUse = some (.register idx)) ∧
      (step s = .fault .unwrittenOperand ↔ s.unwrittenUse = some .operand)) ∧
    (s.config.onUnspecified = .goOn →
      (∀ idx : RegIndex, idx.toNat < 8 → regRead s idx = .ok (s.cell idx.toNat)) ∧
      (∃ t, exec .divmod s = .next t) ∧
      (s.unwrittenUse ≠ none → ∃ t, step s = .next t)) ∧
    (∀ (host : Nat) (idx : RegIndex) (rest : List Event),
      s.port = .access host (.read idx) :: rest ∨
        s.port = .access host (.busRead (s.config.divBase + 8 * idx.toNat) 8) :: rest →
      s.unwrittenUse =
        if idx.toNat < 8 ∧ s.written.isWritten idx.toNat = false then some (.register idx)
        else none) ∧
    (∀ (host : Nat) (w : Word) (rest : List Event),
      s.port = .access host (.write cmdIndex w) :: rest ∨
        s.port = .access host (.busWrite (s.config.divBase + 128) (bytesOfWord w)) :: rest →
      (s.unwrittenUse = some .operand ↔
        w = 0x0000000000000001 ∧ ∃ i, i < 8 ∧ s.written.isWritten i = false) ∧
      (s.unwrittenUse = none ∨ s.unwrittenUse = some .operand))

/-! ### DIVMOD at the interface -/

/-- 30_encoding.md R75: the operand values are assembled from registers 0 .. 3 and 4 .. 7, each limb placed
by its index. -/
def Obligations.OperandsAssembledFromTheirRegisters : Prop :=
  ∀ s : State,
    s.a.val = (s.cell 3).toNat * 2 ^ 192 + (s.cell 2).toNat * 2 ^ 128 +
      (s.cell 1).toNat * 2 ^ 64 + (s.cell 0).toNat ∧
    s.b.val = (s.cell 7).toNat * 2 ^ 192 + (s.cell 6).toNat * 2 ^ 128 +
      (s.cell 5).toNat * 2 ^ 64 + (s.cell 4).toNat

/-- 40_divmod.md R102 and 30_encoding.md R76. HEADLINE: with a nonzero divisor DIVMOD completes with the
exact quotient and remainder, split into limbs at indices 8 + k and 12 + k, and changes nothing but Q,
RM and STATUS (and the internal state); with divisor zero its outcome is DivisionByZero. -/
def Obligations.DivmodGivesQuotientAndRemainder : Prop :=
  ∀ s : State, s.operandsReady = true →
    (s.b.val ≠ 0 → ∃ t, exec .divmod s = .next t ∧
      t.q.val = s.a.val / s.b.val ∧ t.rm.val = s.a.val % s.b.val ∧
      s.a.val = t.q.val * s.b.val + t.rm.val ∧ t.rm.val < s.b.val ∧
      (∀ k, k < 4 →
        t.cell (8 + k) = BitVec.ofNat 64 (s.a.val / s.b.val / 2 ^ (64 * k)) ∧
        t.cell (12 + k) = BitVec.ofNat 64 (s.a.val % s.b.val / 2 ^ (64 * k))) ∧
      t.status = 0x0000000000000001 ∧
      t.a = s.a ∧ t.b = s.b ∧ t.written = s.written ∧ t.config = s.config ∧
      t.port = s.port ∧ t.responses = s.responses) ∧
    (s.b.val = 0 → ∃ t, exec .divmod s = .next t ∧
      statusDbz t.status = true ∧ statusValid t.status = false)

/-- 60_exceptions.md R201: DIVMOD with divisor zero, for every dividend, sets STATUS to DBZ alone, leaves A
and B unchanged, and, where unspecified values fault (assumption 7), makes every read of Q or RM a
ResultNotValid (10_state.md R24). Nothing is said of what Q and RM hold. -/
def Obligations.DivisionByZeroRecordsDbzAlone : Prop :=
  ∀ s : State, s.operandsReady = true → s.b.val = 0 →
    ∃ t, exec .divmod s = .next t ∧
      statusValid t.status = false ∧ statusDbz t.status = true ∧ statusIllcmd t.status = false ∧
      t.status = 0x0000000000000002 ∧
      (s.config.onUnspecified = .fault → ∀ idx : RegIndex, 8 ≤ idx.toNat → idx.toNat < 16 →
        regRead t idx = .error (.resultNotValid idx)) ∧
      t.a = s.a ∧ t.b = s.b ∧ t.written = s.written ∧ t.config = s.config ∧
      t.port = s.port ∧ t.responses = s.responses

/-- 40_divmod.md R119: DIVMOD raises DivisionByZero exactly when the divisor is zero and nothing else, for
every dividend, and an illegal command word never reaches it. -/
def Obligations.DivmodRaisesOnlyDivisionByZero : Prop :=
  (∀ s : State, s.operandsReady = true →
    ∃ t, exec .divmod s = .next t ∧ (statusDbz t.status = true ↔ s.b.val = 0) ∧
      (statusValid t.status = true ↔ s.b.val ≠ 0) ∧ statusIllcmd t.status = false) ∧
  (∀ (w : Word) (s : State), w ≠ 0x0000000000000001 →
    issueCommand w s = .next s.illegalCommand)

/-- Inferred from 10_state.md R28 (its table, and what it says follows from it): STATUS after each outcome
of a command. -/
def Obligations.StatusFollowsTheCommandTable : Prop :=
  ∀ (s t : State) (w : Word), issueCommand w s = .next t →
    (w = 0x0000000000000001 → s.b.val ≠ 0 →
      statusValid t.status = true ∧ statusDbz t.status = false ∧ statusIllcmd t.status = false) ∧
    (w = 0x0000000000000001 → s.b.val = 0 →
      statusValid t.status = false ∧ statusDbz t.status = true ∧ statusIllcmd t.status = false) ∧
    (w ≠ 0x0000000000000001 →
      statusValid t.status = statusValid s.status ∧ statusDbz t.status = statusDbz s.status ∧
      statusIllcmd t.status = true ∧ t.q = s.q ∧ t.rm = s.rm) ∧
    (statusLegal s.status = true → statusLegal t.status = true) ∧
    (statusDbz t.status = true ∧ statusIllcmd t.status = true →
      w ≠ 0x0000000000000001 ∧ statusDbz s.status = true)

/-- 40_divmod.md R115: a DIVMOD result depends only on the eight operand registers, not on earlier
results, STATUS, internal state, replies or the open parameters. -/
def Obligations.DivmodDependsOnlyOnTheOperands : Prop :=
  ∀ s s' : State, s.operandsReady = true → s'.operandsReady = true → s.a = s'.a → s.b = s'.b →
    ∃ t t', exec .divmod s = .next t ∧ exec .divmod s' = .next t' ∧ t.status = t'.status ∧
      (s.b.val ≠ 0 → t.q = t'.q ∧ t.rm = t'.rm)

/-- Inferred from 40_divmod.md R117 (marked as derived from R115): a second DIVMOD with no operand write
between writes the same Q, RM and STATUS. -/
def Obligations.SecondDivmodRepeatsTheFirst : Prop :=
  ∀ s t : State, s.b.val ≠ 0 → exec .divmod s = .next t →
    ∃ t', exec .divmod t = .next t' ∧ t'.q = t.q ∧ t'.rm = t.rm ∧ t'.status = t.status

/-- Inferred from 60_exceptions.md R207: the access check comes before the command decode, and the command
decode before the divisor test. -/
def Obligations.OutcomesHaveTheirPriority : Prop :=
  ∀ (s : State) (host : Nat), s.b.val = 0 → s.operandsReady = true →
    (∀ data : List Byte, data.length ≠ 8 →
      performAccess host (.busWrite (s.config.divBase + 128) data) s =
        .fault (.accessError (.malformed (s.config.divBase + 128) data.length))) ∧
    (∀ w : Word, w ≠ 0x0000000000000001 →
      ∃ t, performAccess host (.write cmdIndex w) s = .next t ∧
        statusIllcmd t.status = true ∧ statusDbz t.status = statusDbz s.status) ∧
    (∃ t, performAccess host (.write cmdIndex 0x0000000000000001) s = .next t ∧
      statusIllcmd t.status = false ∧ statusDbz t.status = true)

/-! ### The paths of a division -/

/-- Inferred from 40_divmod.md R104, R105, R108 and 41_normalizer.md R131 (the ranges of the general path and
the pair of a one-limb D = V are marked as derived there): the path tests in their order, what the two fast paths return, and
that equal operands give (1, 0) whichever path they take. -/
def Obligations.DividePathsAreTestedInOrder : Prop :=
  ∀ (p : Pretest) (D V : Uint256) (dp : Datapath), V.val ≠ 0 →
    (V.val > D.val → ∃ r, divide p D V dp = some r ∧ r.quotient = 0 ∧ r.remainder = D.val) ∧
    (V.val ≤ D.val → nlimbs V = 1 → divide p D V dp = some (singleLimb D (V.limb 0) dp)) ∧
    (nlimbs V ≠ 1 → D = V → divide p D V dp = some (fastEqual dp)) ∧
    (D = V → ∃ r, divide p D V dp = some r ∧ r.quotient = 1 ∧ r.remainder = 0) ∧
    (V.val ≤ D.val → nlimbs V ≠ 1 → D ≠ V →
      divide p D V dp = general p D V dp ∧ V.val < D.val ∧ 2 ≤ nlimbs V ∧
        nlimbs V ≤ nlimbs D ∧ nlimbs D ≤ 4)

/-- Inferred from 40_divmod.md R106 and R107 (marked as derived): the single-limb division is exact, and no step of it overflows its 64-bit
quotient limb or leaves a remainder of d or more. -/
def Obligations.SingleLimbDivisionIsExact : Prop :=
  ∀ (D : Uint256) (d : Word) (dp : Datapath), d ≠ 0 →
    (singleLimb D d dp).quotient = D.val / d.toNat ∧
    (singleLimb D d dp).remainder = D.val % d.toNat ∧
    (∀ (i : Nat) (c : Datapath), i < 4 → c.r.toNat < d.toNat →
      ((singleLimbStep D d i c).qd.limb i).toNat =
        (c.r.toNat * 2 ^ 64 + (D.limb i).toNat) / d.toNat ∧
      (singleLimbStep D d i c).r.toNat =
        (c.r.toNat * 2 ^ 64 + (D.limb i).toNat) % d.toNat ∧
      (singleLimbStep D d i c).r.toNat < d.toNat)

/-- Inferred from 40_divmod.md R114: "Every path of rule R104 returns the pair of rule R102 for the inputs it
is taken on" (its one-limb clause is marked as derived). HEADLINE: every path gives the pair, whatever the internal state holds and
with or without the pretest, so which path ran cannot be observed; and the general path run on a
one-limb divisor, without the pretest, gives the same pair. -/
def Obligations.EveryPathGivesTheExactPair : Prop :=
  (∀ (p : Pretest) (D V : Uint256) (dp : Datapath), V.val ≠ 0 →
    ∃ r, divide p D V dp = some r ∧ r.quotient = D.val / V.val ∧ r.remainder = D.val % V.val) ∧
  (∀ (D V : Uint256) (dp : Datapath), nlimbs V = 1 → V.val ≤ D.val →
    ∃ r, general .off D V dp = some r ∧ r.quotient = D.val / V.val ∧
      r.remainder = D.val % V.val)

/-! ### The normalizer -/

/-- 41_normalizer.md R130: the effective limb count. -/
def Obligations.LimbCountFindsTheTopNonzeroLimb : Prop :=
  ∀ x : Uint256, x.val ≠ 0 →
    1 ≤ nlimbs x ∧ nlimbs x ≤ 4 ∧ x.limb (nlimbs x - 1) ≠ 0 ∧
    (∀ i, nlimbs x ≤ i → x.limb i = 0)

/-- 41_normalizer.md R132: the leading-zero count. -/
def Obligations.LeadingZeroCountFindsTheTopOneBit : Prop :=
  ∀ x : Word, x ≠ 0 →
    clz64 x ≤ 63 ∧ x.getLsbD (63 - clz64 x) = true ∧
    (∀ k, 63 - clz64 x < k → x.getLsbD k = false)

/-- Inferred from 41_normalizer.md R133 to R136: the normalized divisor is exactly `V * 2^s` with its top
bit set, the normalized dividend exactly `D * 2^s`, and limbs not written keep what they held. -/
def Obligations.NormalizationScalesBothOperands : Prop :=
  ∀ (D V : Uint256) (dp : Datapath), V.val ≠ 0 →
    normShift V ≤ 63 ∧ (normalize D V dp).s.toNat = normShift V ∧
    divisorValue (normalize D V dp).v (nlimbs V) = V.val * 2 ^ normShift V ∧
    2 ^ 63 ≤ ((normalize D V dp).v.limb (nlimbs V - 1)).toNat ∧
    valSlice (normalize D V dp).u.limb 0 (nlimbs D + 1) = D.val * 2 ^ normShift V ∧
    (∀ i, nlimbs V ≤ i → (normalize D V dp).v.limb i = dp.v.limb i) ∧
    (∀ i, nlimbs D < i → (normalize D V dp).u.limb i = dp.u.limb i)

/-- Inferred from 41_normalizer.md R138 ("The shift is exact"): de-normalization takes the factor `2^s` off
a remainder that has it, and limbs above n - 1 are zero. -/
def Obligations.DenormalizationUndoesTheShift : Prop :=
  ∀ (u : Uint320) (n s r : Nat), n ≤ 4 → s ≤ 63 → valSlice u.limb 0 n = r * 2 ^ s →
    (denormalize u n s).val = r ∧ (∀ i, n ≤ i → (denormalize u n s).limb i = 0)

/-! ### The estimator, the refiner and the digit loop -/

/-- Inferred from 43_correction_refiner.md R171 (marked as derived): what the digit loop needs holds at its
first step. -/
def Obligations.DigitLoopStartsReady : Prop :=
  ∀ (D V : Uint256) (dp : Datapath), V.val ≠ 0 → V.val ≤ D.val →
    DigitReady (normalize D V dp).u (normalize D V dp).v (nlimbs V) (nlimbs D - nlimbs V)

/-- Inferred from 42_trial_quotient.md R153 (marked as derived) and R154 (its condition marked as general
knowledge): the estimate is never too small and at most two too large. -/
def Obligations.EstimateIsAtMostTwoTooLarge : Prop :=
  ∀ (u : Uint320) (v : Uint256) (n j : Nat), DigitReady u v n j →
    workingValue u n j / divisorValue v n ≤ estimate u v n j ∧
    estimate u v n j ≤ workingValue u n j / divisorValue v n + 2

/-- Inferred from 42_trial_quotient.md R152 (marked as derived): when the estimate is clamped, and the form
that needs only a 64-bit quotient. -/
def Obligations.ClampedEstimateIsTheEstimate : Prop :=
  ∀ (u : Uint320) (v : Uint256) (n j : Nat), DigitReady u v n j →
    (2 ^ 64 ≤ estimateRaw u v n j ↔ u.limb (j + n) = v.limb (n - 1)) ∧
    estimateRaw u v n j ≤ 2 ^ 64 + 1 ∧ estimateClamped u v n j = estimate u v n j

/-- Inferred from 42_trial_quotient.md R155 (its sentence "It never takes qhat below q and never raises it",
marked as general knowledge): the two-limb pretest, that its partial remainder fits 65 bits, and that at
its end the condition of R155's loop is false, so that two rounds are all the rounds there are
(assumption 18). -/
def Obligations.PretestKeepsTheEstimateInBounds : Prop :=
  ∀ (u : Uint320) (v : Uint256) (n j : Nat), DigitReady u v n j → 2 ≤ n →
    workingValue u n j / divisorValue v n ≤ (pretested u v n j).1 ∧
    (pretested u v n j).1 ≤ estimate u v n j ∧ (pretested u v n j).2 < 2 ^ 65 ∧
    ¬ ((pretested u v n j).2 < 2 ^ 64 ∧
      (pretested u v n j).1 * (v.limb (n - 2)).toNat >
        (pretested u v n j).2 * 2 ^ 64 + (u.limb (j + n - 2)).toNat)

/-- Inferred from 43_correction_refiner.md R182: the limbs `P[0..n]` are the product, and the limb
comparison is the comparison of the product with the working value. -/
def Obligations.LimbProductComparesExactly : Prop :=
  ∀ (qhat : Word) (u : Uint320) (v : Uint256) (n j : Nat), n ≤ 4 →
    ((Finset.range (n + 1)).sum fun k => productLimb qhat v n k * 2 ^ (64 * k)) =
      qhat.toNat * divisorValue v n ∧
    (∀ k, productLimb qhat v n k < 2 ^ 64) ∧
    (productExceeds qhat u v n j = true ↔ workingValue u n j < qhat.toNat * divisorValue v n)

/-- Inferred from 43_correction_refiner.md R172 to R174 (R173 and R174 are marked as derived; that two
conditional decrements are enough is assumption 17): from every trial digit in the estimator's bounds the
refiner returns exactly the true digit, with as many corrections as the trial digit was too large, at
most two, and writes no datapath register but `qhat` and `corr`. -/
def Obligations.RefinerReturnsTheTrueDigit : Prop :=
  ∀ (n j : Nat) (dp : Datapath), n ≤ 4 → 0 < divisorValue dp.v n →
    workingValue dp.u n j / divisorValue dp.v n ≤ dp.qhat.toNat →
    dp.qhat.toNat ≤ workingValue dp.u n j / divisorValue dp.v n + 2 →
    (refine n j dp).qhat.toNat = workingValue dp.u n j / divisorValue dp.v n ∧
    (refine n j dp).corr.toNat =
      dp.qhat.toNat - workingValue dp.u n j / divisorValue dp.v n ∧
    (refine n j dp).corr.toNat ≤ 2 ∧
    refine n j dp = { dp with
      qhat := BitVec.ofNat 64 (workingValue dp.u n j / divisorValue dp.v n)
      corr := BitVec.ofNat 2
        (dp.qhat.toNat - workingValue dp.u n j / divisorValue dp.v n) }

/-- Inferred from 43_correction_refiner.md R175 to R178: the multiply-subtract as an equation of numbers,
its final borrow, its carry bound, and the limbs of `u` it leaves alone. -/
def Obligations.MultiplySubtractIsExact : Prop :=
  ∀ (n j : Nat) (dp : Datapath), j + n ≤ 4 →
    valSlice (mulSub n j dp).u.limb j (n + 1) + dp.qhat.toNat * divisorValue dp.v n =
      workingValue dp.u n j + (mulSub n j dp).borrow.toNat * 2 ^ (64 * (n + 1)) ∧
    ((mulSub n j dp).borrow = true ↔
      workingValue dp.u n j < dp.qhat.toNat * divisorValue dp.v n) ∧
    (∀ k, k ≤ n → (mulSubLimbs j dp k).carry.toNat ≤ 2 ^ 64 - 2) ∧
    (∀ i, i < j ∨ j + n < i → (mulSub n j dp).u.limb i = dp.u.limb i)

/-- Inferred from 43_correction_refiner.md R171, R178 and R179 (marked as derived): one step of the digit
loop completes, records the true digit, leaves the remainder of the working value below the divisor with
a zero limb on top, and changes no other digit and no other limb. That it does so for a one-limb divisor
with the pretest chosen rests on the pretest being left out there (assumption 24, the model's choice;
40_divmod.md R114 takes n = 1 only without the pretest). -/
def Obligations.DigitStepDividesTheWorkingValue : Prop :=
  ∀ (p : Pretest) (n j : Nat) (dp : Datapath), DigitReady dp.u dp.v n j →
    ∃ dp', digitStep p n j dp = some dp' ∧
      (dp'.qd.limb j).toNat = workingValue dp.u n j / divisorValue dp.v n ∧
      valSlice dp'.u.limb j n = workingValue dp.u n j % divisorValue dp.v n ∧
      dp'.u.limb (j + n) = 0 ∧ dp'.v = dp.v ∧
      (∀ k, k ≠ j → dp'.qd.limb k = dp.qd.limb k) ∧
      (∀ i, i < j ∨ j + n < i → dp'.u.limb i = dp.u.limb i)

/-- Inferred from 43_correction_refiner.md R181 (marked as derived). The digit loop on normalized operands
completes with the digits of `D div V`, and leaves `(D mod V) * 2^s` in the low limbs and zero above.
R181 is of two limbs and more: for a one-limb divisor with the pretest chosen the result rests on the pretest
being left out there (assumption 24, the model's choice; 40_divmod.md R114 takes n = 1 only without it). -/
def Obligations.DigitLoopDividesTheNormalizedOperands : Prop :=
  ∀ (p : Pretest) (D V : Uint256) (dp : Datapath), V.val ≠ 0 → V.val ≤ D.val →
    ∃ last, digitLoop p (nlimbs V) (nlimbs D - nlimbs V) (normalize D V dp) = some last ∧
      valSlice last.qd.limb 0 (nlimbs D - nlimbs V + 1) = D.val / V.val ∧
      (∀ i, nlimbs V ≤ i → i ≤ nlimbs D → last.u.limb i = 0) ∧
      valSlice last.u.limb 0 (nlimbs V) = D.val % V.val * 2 ^ normShift V

/-- Inferred from 43_correction_refiner.md R177 and 60_exceptions.md R206: "There is no overflow, no timeout
and no internal error reachable from any input". No state's step raises InternalBorrow. -/
def Obligations.NoStepRaisesInternalBorrow : Prop :=
  ∀ s : State, step s ≠ .fault .internalBorrow

/-! ### Rules of the whole machine -/

/-- Inferred from 10_state.md R29 (marked as derived) and R24. Every step keeps the invariant: STATUS stays
legal, and Q and RM hold a quotient and a remainder while STATUS.VALID = 1. -/
def Obligations.EveryStepKeepsTheMachineInvariant : Prop :=
  ∀ s t : State, Inv s → step s = .next t → Inv t

/-- Inferred from 10_state.md R29 and 70_reset_and_hazards.md R230: both invariants hold at reset, whatever the
parameters. -/
def Obligations.MachineInvariantHoldsAtReset : Prop :=
  (Inv State.reset ∧ OutcomeFromWritten State.reset) ∧
  ∀ s : State, Inv s.resetUnit ∧ OutcomeFromWritten s.resetUnit

/-- Inferred from 10_state.md R27 ("The fields change only at a command write") and 20_memory.md R56: a step
whose event is neither a command write nor reset leaves STATUS, Q, RM and the internal state alone. -/
def Obligations.OnlyCommandWritesChangeResults : Prop :=
  ∀ s t : State, step s = .next t →
    (∀ e rest, s.port = e :: rest → changesResults s.config e = false) →
    t.status = s.status ∧ t.q = s.q ∧ t.rm = s.rm ∧ t.datapath = s.datapath ∧
      t.freeDraws = s.freeDraws

/-- Inferred from 10_state.md R22 and R23 ("The divider reads them at a DIVMOD command and never writes
them"): a step whose event is neither an operand write nor reset leaves A, B and their written-ness
alone. -/
def Obligations.OnlyOperandWritesChangeOperands : Prop :=
  ∀ s t : State, step s = .next t →
    (∀ e rest, s.port = e :: rest → changesOperands s.config e = false) →
    t.a = s.a ∧ t.b = s.b ∧ t.written = s.written

/-- 60_exceptions.md R215: a step of one unit of a platform is its own step, and leaves every other unit as
it was. -/
def Obligations.InstancesShareNoState : Prop :=
  ∀ (p p' : Platform) (k : Nat), p.stepUnit k = .next p' →
    p'.units.length = p.units.length ∧
    (∀ j, j ≠ k → p'.units[j]? = p.units[j]?) ∧
    (∀ s, p.units[k]? = some s → ∃ t, step s = .next t ∧ p'.units[k]? = some t)

/-! ### The model's own choices about accesses and illegal words -/

/-- The model's choice (assumption 14), beside 20_memory.md R52: every bus access that has a byte in the
window, or its address there where it has no byte, and is not the aligned eight bytes of a register is an
AccessError, also where it begins below `DIV_BASE` or ends above the window. -/
def Obligations.AccessReachingIntoTheWindowIsAnAccessError : Prop :=
  ∀ (s : State) (host addr : Nat), addr < s.config.divBase + 256 →
    (∀ size : Nat, s.config.divBase < addr + max size 1 →
      ¬ (size = 8 ∧ ∃ idx : RegIndex, addr = s.config.divBase + 8 * idx.toNat) →
      performAccess host (.busRead addr size) s =
        .fault (.accessError (.malformed addr size))) ∧
    (∀ data : List Byte, s.config.divBase < addr + max data.length 1 →
      ¬ (data.length = 8 ∧ ∃ idx : RegIndex, addr = s.config.divBase + 8 * idx.toNat) →
      performAccess host (.busWrite addr data) s =
        .fault (.accessError (.malformed addr data.length)))

/-- The model's choice (assumption 20), where 60_exceptions.md R204 does not name the internal state: an
illegal command word, written by index or as eight bytes, leaves it as it was and draws no free value. -/
def Obligations.IllegalCommandKeepsTheInternalState : Prop :=
  ∀ (s : State) (host : Nat) (w : Word) (rest : List Event), w ≠ 0x0000000000000001 →
    s.port = .access host (.write cmdIndex w) :: rest ∨
      s.port = .access host (.busWrite (s.config.divBase + 128) (bytesOfWord w)) :: rest →
    ∃ t, step s = .next t ∧ t.datapath = s.datapath ∧ t.freeDraws = s.freeDraws

/-- Inferred from 70_reset_and_hazards.md R236 and 10_state.md R35. A step that makes no use of an unwritten
operand register keeps it true that the outcome in STATUS is one of written operands; where unspecified values
fault (assumption 4), so does every step that completes. -/
def Obligations.StepsOnWrittenOperandsKeepTheOutcomeWritten : Prop :=
  ∀ s t : State, s.unwrittenUse = none ∨ s.config.onUnspecified = .fault →
    OutcomeFromWritten s → step s = .next t → OutcomeFromWritten t
end

