-- ==== Sys2Proof/Laws/Flags.lean ====
section
/-! SUPPORT. The fields of STATUS and of every STATUS word the unit computes. -/

namespace Sys2Proof.Machine

@[simp] theorem statusValid_statusWord (v d i : Bool) : statusValid (statusWord v d i) = v := by
  cases v <;> cases d <;> cases i <;> decide

@[simp] theorem statusDbz_statusWord (v d i : Bool) : statusDbz (statusWord v d i) = d := by
  cases v <;> cases d <;> cases i <;> decide

@[simp] theorem statusIllcmd_statusWord (v d i : Bool) : statusIllcmd (statusWord v d i) = i := by
  cases v <;> cases d <;> cases i <;> decide

/-- Bits 63:3 of a computed STATUS word are zero. -/
@[simp] theorem statusWord_reserved (v d i : Bool) : (statusWord v d i).extractLsb' 3 61 = 0 := by
  cases v <;> cases d <;> cases i <;> decide

@[simp] theorem statusLegal_statusWord (v d i : Bool) :
    statusLegal (statusWord v d i) = !(v && d) := by
  simp [statusLegal]

@[simp] theorem statusValid_afterResult : statusValid statusAfterResult = true := by
  simp [statusAfterResult]

@[simp] theorem statusDbz_afterResult : statusDbz statusAfterResult = false := by
  simp [statusAfterResult]

@[simp] theorem statusValid_afterDivisionByZero : statusValid statusAfterDivisionByZero = false := by
  simp [statusAfterDivisionByZero]

@[simp] theorem statusDbz_afterDivisionByZero : statusDbz statusAfterDivisionByZero = true := by
  simp [statusAfterDivisionByZero]

@[simp] theorem statusValid_afterIllegalCommand (w : Word) :
    statusValid (statusAfterIllegalCommand w) = statusValid w := by
  simp [statusAfterIllegalCommand]

@[simp] theorem statusDbz_afterIllegalCommand (w : Word) :
    statusDbz (statusAfterIllegalCommand w) = statusDbz w := by
  simp [statusAfterIllegalCommand]

@[simp] theorem statusIllcmd_afterIllegalCommand (w : Word) :
    statusIllcmd (statusAfterIllegalCommand w) = true := by
  simp [statusAfterIllegalCommand]

end Sys2Proof.Machine
end

