-- ==== Sys2Proof/Laws/Limbs.lean ====
section
/-! SUPPORT. The small lemmas of limb arrays: reading after writing, the value of a slice, and the four limbs
of a number. -/

namespace Sys2Proof

theorem Uint256.limb_setLimb (x : Uint256) (i k : Nat) (w : Word) :
    (x.setLimb i w).limb k = if k = i ∧ i < 4 then w else x.limb k := by
  rcases i with _ | _ | _ | _ | i <;> rcases k with _ | _ | _ | _ | k <;>
    simp [Uint256.setLimb, Uint256.limb]

theorem Uint256.limb_setLimb_ne (x : Uint256) {i k : Nat} (w : Word) (h : k ≠ i) :
    (x.setLimb i w).limb k = x.limb k := by simp [Uint256.limb_setLimb, h]

theorem Uint256.limb_setLimb_self (x : Uint256) {i : Nat} (w : Word) (h : i < 4) :
    (x.setLimb i w).limb i = w := by simp [Uint256.limb_setLimb, h]

theorem Uint320.limb_setLimb (x : Uint320) (i k : Nat) (w : Word) :
    (x.setLimb i w).limb k = if k = i ∧ i < 5 then w else x.limb k := by
  rcases i with _ | _ | _ | _ | _ | i <;> rcases k with _ | _ | _ | _ | _ | k <;>
    simp [Uint320.setLimb, Uint320.limb]

theorem Uint320.limb_setLimb_ne (x : Uint320) {i k : Nat} (w : Word) (h : k ≠ i) :
    (x.setLimb i w).limb k = x.limb k := by simp [Uint320.limb_setLimb, h]

theorem Uint320.limb_setLimb_self (x : Uint320) {i : Nat} (w : Word) (h : i < 5) :
    (x.setLimb i w).limb i = w := by simp [Uint320.limb_setLimb, h]

/-- Two 256-bit values with the same four limbs are the same. -/
theorem Uint256.ext_limb {x y : Uint256} (h : ∀ k, k < 4 → x.limb k = y.limb k) : x = y := by
  have h0 := h 0 (by omega)
  have h1 := h 1 (by omega)
  have h2 := h 2 (by omega)
  have h3 := h 3 (by omega)
  cases x
  cases y
  simp_all [Uint256.limb]

/-! ### Slices -/

@[simp] theorem valSlice_zero (x : Nat → Word) (lo : Nat) : valSlice x lo 0 = 0 := rfl

theorem valSlice_succ (x : Nat → Word) (lo count : Nat) :
    valSlice x lo (count + 1) =
      valSlice x lo count + (x (lo + count)).toNat * 2 ^ (64 * count) := rfl

theorem valSlice_lt (x : Nat → Word) (lo count : Nat) :
    valSlice x lo count < 2 ^ (64 * count) := by
  induction count with
  | zero => simp
  | succ c ih =>
    have hw : (x (lo + c)).toNat + 1 ≤ 2 ^ 64 := (x (lo + c)).isLt
    have hp : 2 ^ (64 * (c + 1)) = 2 ^ 64 * 2 ^ (64 * c) := by rw [Nat.mul_succ, Nat.pow_add, Nat.mul_comm]
    have := Nat.mul_le_mul_right (2 ^ (64 * c)) hw
    rw [valSlice_succ, hp]
    linarith

/-- Slices agree when their limbs agree. -/
theorem valSlice_congr {x y : Nat → Word} {lo lo' count : Nat}
    (h : ∀ k, k < count → x (lo + k) = y (lo' + k)) :
    valSlice x lo count = valSlice y lo' count := by
  induction count with
  | zero => rfl
  | succ c ih =>
    rw [valSlice_succ, valSlice_succ, ih fun k hk => h k (by omega), h c (by omega)]

/-- The lowest limb of a slice and the slice above it. -/
theorem valSlice_cons (x : Nat → Word) (lo count : Nat) :
    valSlice x lo (count + 1) = (x lo).toNat + 2 ^ 64 * valSlice x (lo + 1) count := by
  induction count with
  | zero => simp [valSlice_succ]
  | succ c ih =>
    have hp : 2 ^ (64 * (c + 1)) = 2 ^ 64 * 2 ^ (64 * c) := by rw [Nat.mul_succ, Nat.pow_add, Nat.mul_comm]
    have hi : lo + 1 + c = lo + (c + 1) := by omega
    rw [valSlice_succ, ih, valSlice_succ x (lo + 1) c, hp, hi]
    ring

/-- `Val(X)` is the slice of all four limbs (00_scope.md R8). -/
theorem Uint256.val_eq_valSlice (x : Uint256) : x.val = valSlice x.limb 0 4 := by
  simp [Uint256.val, valSlice, Uint256.limb]

theorem Uint256.val_lt (x : Uint256) : x.val < 2 ^ 256 := by
  rw [Uint256.val_eq_valSlice]
  exact valSlice_lt x.limb 0 4

/-! ### Numbers and their limbs -/

theorem limbOfNat_toNat (x k : Nat) : (limbOfNat x k).toNat = x / 2 ^ (64 * k) % 2 ^ 64 := by
  simp [limbOfNat]

/-- Packing a number below 2^256 into four limbs loses nothing (30_encoding.md R76). -/
theorem Uint256.val_ofNat {x : Nat} (h : x < 2 ^ 256) : (Uint256.ofNat x).val = x := by
  simp only [Uint256.val, Uint256.ofNat, limbOfNat_toNat]
  omega

/-- Two 256-bit values with the same value are the same. -/
theorem Uint256.val_injective {x y : Uint256} (h : x.val = y.val) : x = y := by
  cases x
  cases y
  simp only [Uint256.val] at h
  simp only [Uint256.mk.injEq]
  refine ⟨?_, ?_, ?_, ?_⟩ <;> apply BitVec.eq_of_toNat_eq <;> omega

theorem lo64_add_hi64 (p : Nat) : lo64 p + hi64 p * 2 ^ 64 = p := by
  simp only [lo64, hi64]
  omega

theorem lo64_lt (p : Nat) : lo64 p < 2 ^ 64 := Nat.mod_lt _ (by decide)

end Sys2Proof
end

