-- ==== Sys2Proof/Laws/State.lean ====
section
/-! SUPPORT. One lemma per field per named update of State, true by rfl, so that no later proof unfolds a
record update. -/

namespace Sys2Proof.Machine

variable (s : State)

/-! ### `State.divisionByZero` -/

@[simp] theorem State.divisionByZero_config : (s.divisionByZero).config = s.config := rfl
@[simp] theorem State.divisionByZero_a : (s.divisionByZero).a = s.a := rfl
@[simp] theorem State.divisionByZero_b : (s.divisionByZero).b = s.b := rfl
@[simp] theorem State.divisionByZero_q : (s.divisionByZero).q =
    freeQuotient s.config.windowBlock s.freeDraws := rfl
@[simp] theorem State.divisionByZero_rm : (s.divisionByZero).rm =
    freeRemainder s.config.windowBlock s.freeDraws := rfl
@[simp] theorem State.divisionByZero_status : (s.divisionByZero).status = statusAfterDivisionByZero := rfl
@[simp] theorem State.divisionByZero_written : (s.divisionByZero).written = s.written := rfl
@[simp] theorem State.divisionByZero_datapath : (s.divisionByZero).datapath =
    freeDatapath s.config.windowBlock s.freeDraws := rfl
@[simp] theorem State.divisionByZero_freeDraws : (s.divisionByZero).freeDraws = s.freeDraws + 1 := rfl
@[simp] theorem State.divisionByZero_port : (s.divisionByZero).port = s.port := rfl
@[simp] theorem State.divisionByZero_responses : (s.divisionByZero).responses = s.responses := rfl

/-! ### `State.writeResult` -/

@[simp] theorem State.writeResult_config (x y : Nat) : (s.writeResult x y).config = s.config := rfl
@[simp] theorem State.writeResult_a (x y : Nat) : (s.writeResult x y).a = s.a := rfl
@[simp] theorem State.writeResult_b (x y : Nat) : (s.writeResult x y).b = s.b := rfl
@[simp] theorem State.writeResult_q (x y : Nat) : (s.writeResult x y).q = Uint256.ofNat x := rfl
@[simp] theorem State.writeResult_rm (x y : Nat) : (s.writeResult x y).rm = Uint256.ofNat y := rfl
@[simp] theorem State.writeResult_status (x y : Nat) : (s.writeResult x y).status = statusAfterResult := rfl
@[simp] theorem State.writeResult_written (x y : Nat) : (s.writeResult x y).written = s.written := rfl
@[simp] theorem State.writeResult_datapath (x y : Nat) : (s.writeResult x y).datapath =
    freeDatapath s.config.windowBlock s.freeDraws := rfl
@[simp] theorem State.writeResult_freeDraws (x y : Nat) : (s.writeResult x y).freeDraws = s.freeDraws + 1 := rfl
@[simp] theorem State.writeResult_port (x y : Nat) : (s.writeResult x y).port = s.port := rfl
@[simp] theorem State.writeResult_responses (x y : Nat) : (s.writeResult x y).responses = s.responses := rfl

/-! ### `State.illegalCommand` -/

@[simp] theorem State.illegalCommand_config : (s.illegalCommand).config = s.config := rfl
@[simp] theorem State.illegalCommand_a : (s.illegalCommand).a = s.a := rfl
@[simp] theorem State.illegalCommand_b : (s.illegalCommand).b = s.b := rfl
@[simp] theorem State.illegalCommand_q : (s.illegalCommand).q = s.q := rfl
@[simp] theorem State.illegalCommand_rm : (s.illegalCommand).rm = s.rm := rfl
@[simp] theorem State.illegalCommand_status : (s.illegalCommand).status = statusAfterIllegalCommand s.status := rfl
@[simp] theorem State.illegalCommand_written : (s.illegalCommand).written = s.written := rfl
@[simp] theorem State.illegalCommand_datapath : (s.illegalCommand).datapath = s.datapath := rfl
@[simp] theorem State.illegalCommand_freeDraws : (s.illegalCommand).freeDraws = s.freeDraws := rfl
@[simp] theorem State.illegalCommand_port : (s.illegalCommand).port = s.port := rfl
@[simp] theorem State.illegalCommand_responses : (s.illegalCommand).responses = s.responses := rfl

/-! ### `State.resetUnit` -/

@[simp] theorem State.resetUnit_config : (s.resetUnit).config = s.config := rfl
@[simp] theorem State.resetUnit_a : (s.resetUnit).a = Uint256.zero := rfl
@[simp] theorem State.resetUnit_b : (s.resetUnit).b = Uint256.zero := rfl
@[simp] theorem State.resetUnit_q : (s.resetUnit).q = Uint256.zero := rfl
@[simp] theorem State.resetUnit_rm : (s.resetUnit).rm = Uint256.zero := rfl
@[simp] theorem State.resetUnit_status : (s.resetUnit).status = 0 := rfl
@[simp] theorem State.resetUnit_written : (s.resetUnit).written = OperandMarks.none := rfl
@[simp] theorem State.resetUnit_datapath : (s.resetUnit).datapath = Datapath.reset := rfl
@[simp] theorem State.resetUnit_freeDraws : (s.resetUnit).freeDraws = s.freeDraws := rfl
@[simp] theorem State.resetUnit_port : (s.resetUnit).port = s.port := rfl
@[simp] theorem State.resetUnit_responses : (s.resetUnit).responses = s.responses := rfl

/-! ### `State.respond` -/

@[simp] theorem State.respond_config (h : Nat) (r : Reply) : (s.respond h r).config = s.config := rfl
@[simp] theorem State.respond_a (h : Nat) (r : Reply) : (s.respond h r).a = s.a := rfl
@[simp] theorem State.respond_b (h : Nat) (r : Reply) : (s.respond h r).b = s.b := rfl
@[simp] theorem State.respond_q (h : Nat) (r : Reply) : (s.respond h r).q = s.q := rfl
@[simp] theorem State.respond_rm (h : Nat) (r : Reply) : (s.respond h r).rm = s.rm := rfl
@[simp] theorem State.respond_status (h : Nat) (r : Reply) : (s.respond h r).status = s.status := rfl
@[simp] theorem State.respond_written (h : Nat) (r : Reply) : (s.respond h r).written = s.written := rfl
@[simp] theorem State.respond_datapath (h : Nat) (r : Reply) : (s.respond h r).datapath = s.datapath := rfl
@[simp] theorem State.respond_freeDraws (h : Nat) (r : Reply) : (s.respond h r).freeDraws = s.freeDraws := rfl
@[simp] theorem State.respond_port (h : Nat) (r : Reply) : (s.respond h r).port = s.port := rfl
@[simp] theorem State.respond_responses (h : Nat) (r : Reply) : (s.respond h r).responses = { host := h, reply := r } :: s.responses := rfl

/-! ### `State.setPort` -/

@[simp] theorem State.setPort_config (l : List Event) : (s.setPort l).config = s.config := rfl
@[simp] theorem State.setPort_a (l : List Event) : (s.setPort l).a = s.a := rfl
@[simp] theorem State.setPort_b (l : List Event) : (s.setPort l).b = s.b := rfl
@[simp] theorem State.setPort_q (l : List Event) : (s.setPort l).q = s.q := rfl
@[simp] theorem State.setPort_rm (l : List Event) : (s.setPort l).rm = s.rm := rfl
@[simp] theorem State.setPort_status (l : List Event) : (s.setPort l).status = s.status := rfl
@[simp] theorem State.setPort_written (l : List Event) : (s.setPort l).written = s.written := rfl
@[simp] theorem State.setPort_datapath (l : List Event) : (s.setPort l).datapath = s.datapath := rfl
@[simp] theorem State.setPort_freeDraws (l : List Event) : (s.setPort l).freeDraws = s.freeDraws := rfl
@[simp] theorem State.setPort_port (l : List Event) : (s.setPort l).port = l := rfl
@[simp] theorem State.setPort_responses (l : List Event) : (s.setPort l).responses = s.responses := rfl

/-! ### `State.writeOperand`, which writes A or B by its index -/

@[simp] theorem State.writeOperand_config (i : Nat) (w : Word) :
    (s.writeOperand i w).config = s.config := by
  unfold State.writeOperand
  split <;> rfl

@[simp] theorem State.writeOperand_q (i : Nat) (w : Word) :
    (s.writeOperand i w).q = s.q := by
  unfold State.writeOperand
  split <;> rfl

@[simp] theorem State.writeOperand_rm (i : Nat) (w : Word) :
    (s.writeOperand i w).rm = s.rm := by
  unfold State.writeOperand
  split <;> rfl

@[simp] theorem State.writeOperand_status (i : Nat) (w : Word) :
    (s.writeOperand i w).status = s.status := by
  unfold State.writeOperand
  split <;> rfl

@[simp] theorem State.writeOperand_datapath (i : Nat) (w : Word) :
    (s.writeOperand i w).datapath = s.datapath := by
  unfold State.writeOperand
  split <;> rfl

@[simp] theorem State.writeOperand_freeDraws (i : Nat) (w : Word) :
    (s.writeOperand i w).freeDraws = s.freeDraws := by
  unfold State.writeOperand
  split <;> rfl

@[simp] theorem State.writeOperand_port (i : Nat) (w : Word) :
    (s.writeOperand i w).port = s.port := by
  unfold State.writeOperand
  split <;> rfl

@[simp] theorem State.writeOperand_responses (i : Nat) (w : Word) :
    (s.writeOperand i w).responses = s.responses := by
  unfold State.writeOperand
  split <;> rfl

@[simp] theorem State.writeOperand_written (i : Nat) (w : Word) :
    (s.writeOperand i w).written = s.written.mark i := by
  unfold State.writeOperand
  split <;> rfl

theorem State.writeOperand_a (i : Nat) (w : Word) :
    (s.writeOperand i w).a = if i < 4 then s.a.setLimb i w else s.a := by
  unfold State.writeOperand
  split <;> rfl

theorem State.writeOperand_b (i : Nat) (w : Word) :
    (s.writeOperand i w).b = if i < 4 then s.b else s.b.setLimb (i - 4) w := by
  unfold State.writeOperand
  split <;> rfl

end Sys2Proof.Machine
end

