-- ==== Sys2Proof/Laws/Ops.lean ====
section
/-! SUPPORT. What the shared register operations do, said once each: written-ness, the register file, a
register read, and the cases of DIVMOD. -/

namespace Sys2Proof.Machine

theorem OperandMarks.isWritten_mark (k : OperandMarks) (i j : Nat) :
    (k.mark i).isWritten j = if j = i ∧ i < 8 then true else k.isWritten j := by
  rcases i with _ | _ | _ | _ | _ | _ | _ | _ | i <;>
    rcases j with _ | _ | _ | _ | _ | _ | _ | _ | j <;>
    simp [OperandMarks.mark, OperandMarks.isWritten]

/-- Marking a register written never takes the mark from another. -/
theorem OperandMarks.all_mark {k : OperandMarks} (i : Nat) (h : k.all = true) :
    (k.mark i).all = true := by
  rcases i with _ | _ | _ | _ | _ | _ | _ | _ | i <;>
    simp_all [OperandMarks.mark, OperandMarks.all]

theorem OperandMarks.all_iff (k : OperandMarks) :
    k.all = true ↔ ∀ i, i < 8 → k.isWritten i = true := by
  constructor
  · intro h i hi
    rcases i with _ | _ | _ | _ | _ | _ | _ | _ | i <;>
      first
      | omega
      | simp_all [OperandMarks.isWritten, OperandMarks.all]
  · intro h
    have h0 := h 0 (by omega)
    have h1 := h 1 (by omega)
    have h2 := h 2 (by omega)
    have h3 := h 3 (by omega)
    have h4 := h 4 (by omega)
    have h5 := h 5 (by omega)
    have h6 := h 6 (by omega)
    have h7 := h 7 (by omega)
    simp_all [OperandMarks.isWritten, OperandMarks.all]

/-- A data register after a write of operand register `i`. -/
theorem State.cell_writeOperand (s : State) {i : Nat} (hi : i < 8) (w : Word) (k : Nat) :
    (s.writeOperand i w).cell k = if k = i then w else s.cell k := by
  unfold State.cell
  rw [State.writeOperand_a, State.writeOperand_b, State.writeOperand_q, State.writeOperand_rm]
  by_cases h4 : i < 4
  · rw [if_pos h4, if_pos h4, Uint256.limb_setLimb]
    by_cases hk : k = i
    · subst hk
      simp [h4]
    · simp [hk]
  · rw [if_neg h4, if_neg h4, Uint256.limb_setLimb]
    by_cases hk : k = i
    · subst hk
      have h8 : k - 4 < 4 := by omega
      simp [h4, hi, h8]
    · have hne : ∀ h : ¬ k < 4, ¬ (k - 4 = i - 4 ∧ i - 4 < 4) := by omega
      by_cases hk4 : k < 4
      · simp [hk, hk4]
      · simp [hk, hk4, hne hk4]

/-- Where unspecified values are used as the hardware uses them, every register may be used. -/
theorem State.ready_of_goOn {s : State} (h : s.config.onUnspecified = .goOn) :
    (∀ i, s.operandReadable i = true) ∧ s.operandsReady = true ∧ s.resultReadable = true := by
  simp [State.operandReadable, State.operandsReady, State.resultReadable, State.faultsUnspecified, h]

/-- Where they fault, a register may be used exactly when its value is specified. -/
theorem State.ready_of_fault {s : State} (h : s.config.onUnspecified = .fault) :
    (∀ i, s.operandReadable i = s.written.isWritten i) ∧ s.operandsReady = s.written.all ∧
      s.resultReadable = statusValid s.status := by
  simp [State.operandReadable, State.operandsReady, State.resultReadable, State.faultsUnspecified, h]

/-- The cases of a register read that gives a value. -/
theorem regRead_eq_ok {s : State} {idx : RegIndex} {w : Word} (h : regRead s idx = .ok w) :
    (idx.toNat < 8 ∧ s.operandReadable idx.toNat = true ∧ w = s.cell idx.toNat) ∨
    (8 ≤ idx.toNat ∧ idx.toNat < 16 ∧ s.resultReadable = true ∧ w = s.cell idx.toNat) ∨
    (idx.toNat = 17 ∧ w = statusRead s.status) := by
  unfold regRead at h
  split at h
  · next h8 =>
    split at h
    · next hr => exact .inl ⟨h8, hr, by simpa using h.symm⟩
    · simp at h
  · next h8 =>
    split at h
    · next h16 =>
      split at h
      · next hv => exact .inr (.inl ⟨by omega, h16, hv, by simpa using h.symm⟩)
      · simp at h
    · split at h
      · next h17 => exact .inr (.inr ⟨h17, by simpa using h.symm⟩)
      · simp at h

/-- An operand register that may be read reads as what it holds; another is the fault of 10_state.md R35. -/
theorem regRead_operand (s : State) {idx : RegIndex} (h : idx.toNat < 8) :
    regRead s idx = if s.operandReadable idx.toNat then .ok (s.cell idx.toNat)
      else .error (.unwrittenRegister idx) := by
  simp [regRead, h]

/-- A result register that may be read reads as what it holds; another is the fault of 10_state.md R24. -/
theorem regRead_result (s : State) {idx : RegIndex} (h8 : 8 ≤ idx.toNat) (h16 : idx.toNat < 16) :
    regRead s idx = if s.resultReadable then .ok (s.cell idx.toNat)
      else .error (.resultNotValid idx) := by
  simp [regRead, h16, Nat.not_lt.mpr h8]

/-- A register read looks at nothing but the parameters, the written-ness, the data registers and
STATUS. -/
theorem regRead_congr {s t : State} (idx : RegIndex) (hc : t.config = s.config)
    (hw : t.written = s.written) (ha : t.a = s.a) (hb : t.b = s.b) (hq : t.q = s.q)
    (hrm : t.rm = s.rm) (hs : t.status = s.status) : regRead t idx = regRead s idx := by
  simp [regRead, State.operandReadable, State.resultReadable, State.faultsUnspecified, State.cell,
    hc, hw, ha, hb, hq, hrm, hs]

/-- The cases of DIVMOD, said once: the four ways it can end. -/
theorem execDivmod_cases (s : State) :
    (s.operandsReady = false ∧ execDivmod s = .fault .unwrittenOperand) ∨
    (s.operandsReady = true ∧ s.b.val = 0 ∧ execDivmod s = .next s.divisionByZero) ∨
    (s.operandsReady = true ∧ s.b.val ≠ 0 ∧
      ∃ res, divide s.config.pretest s.a s.b s.datapath = some res ∧
        execDivmod s = .next (s.writeResult res.quotient res.remainder)) ∨
    (s.operandsReady = true ∧ s.b.val ≠ 0 ∧
      divide s.config.pretest s.a s.b s.datapath = none ∧
      execDivmod s = .fault .internalBorrow) := by
  by_cases hr : s.operandsReady = true
  · by_cases hv : s.b.val = 0
    · exact .inr (.inl ⟨hr, hv, by simp [execDivmod, hr, hv]⟩)
    · cases hd : divide s.config.pretest s.a s.b s.datapath with
      | none => exact .inr (.inr (.inr ⟨hr, hv, rfl, by simp [execDivmod, hr, hv, hd]⟩))
      | some res => exact .inr (.inr (.inl ⟨hr, hv, res, rfl, by simp [execDivmod, hr, hv, hd]⟩))
  · have hf : s.operandsReady = false := by simpa using hr
    exact .inl ⟨hf, by simp [execDivmod, hf]⟩

end Sys2Proof.Machine
end

