-- ==== Sys2Proof/Laws/Datapath.lean ====
section
/-! SUPPORT. What each block of the datapath writes and what it leaves alone, and the value of the limb
operations it is built of; the proofs of the blocks' results cite these. -/

namespace Sys2Proof.Machine

/-! ### Counts -/

theorem nlimbs_le (x : Uint256) : nlimbs x ≤ 4 := by
  unfold nlimbs
  split <;> (try split) <;> (try split) <;> (try split) <;> omega

theorem clzBelow_le (x : Word) (k : Nat) : clzBelow x k ≤ k := by
  induction k with
  | zero => simp [clzBelow]
  | succ k ih =>
    unfold clzBelow
    split <;> omega

theorem normalize_n (D V : Uint256) (dp : Datapath) : (normalize D V dp).n.toNat = nlimbs V := by
  have := nlimbs_le V
  simp [normalize]
  omega

theorem normalize_m (D V : Uint256) (dp : Datapath) : (normalize D V dp).m.toNat = nlimbs D := by
  have := nlimbs_le D
  simp [normalize]
  omega

/-! ### The estimator writes `qhat` and `rhat` only -/

@[simp] theorem runEstimator_u (p : Pretest) (n j : Nat) (dp : Datapath) :
    (runEstimator p n j dp).u = dp.u := rfl

@[simp] theorem runEstimator_v (p : Pretest) (n j : Nat) (dp : Datapath) :
    (runEstimator p n j dp).v = dp.v := rfl

@[simp] theorem runEstimator_qd (p : Pretest) (n j : Nat) (dp : Datapath) :
    (runEstimator p n j dp).qd = dp.qd := rfl

/-! ### The refiner writes `qhat` and `corr` only -/

theorem refineLoop_frame (n j fuel : Nat) (dp : Datapath) :
    (refineLoop n j fuel dp).u = dp.u ∧ (refineLoop n j fuel dp).v = dp.v ∧
      (refineLoop n j fuel dp).qd = dp.qd ∧ (refineLoop n j fuel dp).s = dp.s := by
  induction fuel generalizing dp with
  | zero => exact ⟨rfl, rfl, rfl, rfl⟩
  | succ f ih =>
    unfold refineLoop
    split
    · exact ih _
    · exact ⟨rfl, rfl, rfl, rfl⟩

theorem refine_frame (n j : Nat) (dp : Datapath) :
    (refine n j dp).u = dp.u ∧ (refine n j dp).v = dp.v ∧ (refine n j dp).qd = dp.qd ∧
      (refine n j dp).s = dp.s :=
  refineLoop_frame n j 2 _

/-! ### The multiply-subtract writes `u`, `carry`, `borrow`, `t` and `p` only -/

theorem mulSubLimbs_frame (j : Nat) (dp : Datapath) (k : Nat) :
    (mulSubLimbs j dp k).qhat = dp.qhat ∧ (mulSubLimbs j dp k).v = dp.v ∧
      (mulSubLimbs j dp k).qd = dp.qd ∧ (mulSubLimbs j dp k).s = dp.s := by
  induction k with
  | zero => exact ⟨rfl, rfl, rfl, rfl⟩
  | succ k ih => exact ih

theorem mulSub_frame (n j : Nat) (dp : Datapath) :
    (mulSub n j dp).qhat = dp.qhat ∧ (mulSub n j dp).v = dp.v ∧ (mulSub n j dp).qd = dp.qd ∧
      (mulSub n j dp).s = dp.s :=
  mulSubLimbs_frame j dp n

/-- The limbs the first `k` steps of a multiply-subtract have not reached are as before. -/
theorem mulSubLimbs_limb_of_notin (j : Nat) (dp : Datapath) (k i : Nat)
    (h : i < j ∨ j + k ≤ i) : (mulSubLimbs j dp k).u.limb i = dp.u.limb i := by
  induction k with
  | zero => rfl
  | succ k ih =>
    have hne : i ≠ j + k := by omega
    have := ih (by omega)
    simp only [mulSubLimbs, mulSubLimb]
    rw [Uint320.limb_setLimb_ne _ _ hne, this]

/-- One limb of the multiply-subtract as an equation of numbers: the new limb and the product limb and
borrow taken off add up to the old limb and the borrow handed on (43_correction_refiner.md R175, R176). -/
theorem mulSubLimb_value (j k : Nat) (dp : Datapath) (hk : j + k < 5) :
    ((mulSubLimb j k dp).u.limb (j + k)).toNat +
        lo64 (dp.qhat.toNat * (dp.v.limb k).toNat + dp.carry.toNat) + dp.borrow.toNat =
      (dp.u.limb (j + k)).toNat + (mulSubLimb j k dp).borrow.toNat * 2 ^ 64 := by
  have hlo := lo64_lt (dp.qhat.toNat * (dp.v.limb k).toNat + dp.carry.toNat)
  have hu := (dp.u.limb (j + k)).isLt
  have hb : dp.borrow.toNat ≤ 1 := Bool.toNat_le dp.borrow
  simp only [mulSubLimb]
  rw [Uint320.limb_setLimb_self _ _ hk, BitVec.toNat_ofInt]
  generalize lo64 (dp.qhat.toNat * (dp.v.limb k).toNat + dp.carry.toNat) = p at *
  generalize dp.borrow.toNat = b at *
  generalize (dp.u.limb (j + k)).toNat = x at *
  by_cases ht : (x : Int) - p - b < 0
  · simp only [ht, decide_true, Bool.toNat_true]
    omega
  · simp only [ht, decide_false, Bool.toNat_false]
    omega

/-- The product of a 64-bit digit and a limb, with a carry in, fits 128 bits and hands on a carry that
fits a limb (43_correction_refiner.md R175). -/
theorem product_bound {q x c : Nat} (hq : q ≤ 2 ^ 64 - 1) (hx : x ≤ 2 ^ 64 - 1)
    (hc : c ≤ 2 ^ 64 - 2) :
    q * x + c ≤ 2 ^ 128 - 2 ^ 64 - 1 ∧ hi64 (q * x + c) ≤ 2 ^ 64 - 2 := by
  have hm : q * x ≤ (2 ^ 64 - 1) * (2 ^ 64 - 1) := Nat.mul_le_mul hq hx
  simp only [hi64]
  omega

/-! ### Shifted limbs -/

/-- A limb shifted left, as a number. -/
theorem toNat_shiftLeft_eq (w : Word) (s : Nat) : (w <<< s).toNat = w.toNat * 2 ^ s % 2 ^ 64 := by
  simp [BitVec.toNat_shiftLeft, Nat.shiftLeft_eq]

/-- A limb shifted right, as a number. -/
theorem toNat_shiftRight_eq (w : Word) (s : Nat) : (w >>> s).toNat = w.toNat / 2 ^ s := by
  simp [BitVec.toNat_ushiftRight, Nat.shiftRight_eq_div_pow]

/-! ### One digit step leaves the divisor, the shift and the other digits alone -/

theorem digitStep_frame {p : Pretest} {n j : Nat} {dp dp' : Datapath}
    (h : digitStep p n j dp = some dp') :
    dp'.v = dp.v ∧ (∀ k, k ≠ j → dp'.qd.limb k = dp.qd.limb k) := by
  unfold digitStep at h
  simp only at h
  split at h
  · simp at h
  · have h' := Option.some.inj h
    obtain ⟨_, hv, hqd, _⟩ := mulSub_frame n j
      (refine n j (runEstimator p n j { dp with j := BitVec.ofNat 2 j }))
    obtain ⟨_, hrv, hrqd, _⟩ := refine_frame n j
      (runEstimator p n j { dp with j := BitVec.ofNat 2 j })
    subst h'
    refine ⟨by simp [hv, hrv, runEstimator_v], fun k hk => ?_⟩
    simp only
    rw [Uint256.limb_setLimb_ne _ _ hk, hqd, hrqd, runEstimator_qd]

end Sys2Proof.Machine
end

