-- ==== Sys2Proof/Laws/HostAccess.lean ====
section
/-! SUPPORT. What a register write, a host access and a step can do, said once each; later proofs cite these
and unfold none of them. -/

namespace Sys2Proof.Machine

/-- A register write that completes is an operand write or a command. -/
theorem regWrite_next {idx : RegIndex} {v : Word} {s t : State} (h : regWrite idx v s = .next t) :
    (idx.toNat < 8 ∧ t = s.writeOperand idx.toNat v) ∨
    (idx.toNat = 16 ∧ issueCommand v s = .next t) := by
  unfold regWrite at h
  split at h
  · next h8 => exact .inl ⟨h8, by simpa using h.symm⟩
  · split at h
    · next h16 => exact .inr ⟨h16, h⟩
    · simp at h

/-- A command that completes is an illegal word, a DIVMOD by zero, or a DIVMOD with a result. -/
theorem issueCommand_next {w : Word} {s t : State} (h : issueCommand w s = .next t) :
    (∃ e, decode w = .error e ∧ t = s.illegalCommand) ∨
    (decode w = .ok .divmod ∧ s.operandsReady = true ∧ s.b.val = 0 ∧ t = s.divisionByZero) ∨
    (decode w = .ok .divmod ∧ s.operandsReady = true ∧ s.b.val ≠ 0 ∧
      ∃ res, divide s.config.pretest s.a s.b s.datapath = some res ∧
        t = s.writeResult res.quotient res.remainder) := by
  unfold issueCommand at h
  cases hd : decode w with
  | error e =>
    rw [hd] at h
    exact .inl ⟨e, rfl, by simpa using h.symm⟩
  | ok i =>
    rw [hd] at h
    cases i
    have h' : execDivmod s = .next t := h
    rcases execDivmod_cases s with ⟨_, e⟩ | ⟨hr, hv, e⟩ | ⟨hr, hv, res, hres, e⟩ | ⟨_, _, _, e⟩ <;>
      rw [e] at h'
    · simp at h'
    · exact .inr (.inl ⟨rfl, hr, hv, by simpa using h'.symm⟩)
    · exact .inr (.inr ⟨rfl, hr, hv, res, hres, by simpa using h'.symm⟩)
    · simp at h'

theorem replyDone_next {host : Nat} {o : Host.Outcome State Fault Refusal} {t : State}
    (h : replyDone host o = .next t) : ∃ t₀, o = .next t₀ ∧ t = t₀.respond host .done := by
  cases o with
  | next t₀ => exact ⟨t₀, rfl, by simpa [replyDone] using h.symm⟩
  | fault f => simp [replyDone] at h
  | refused r => simp [replyDone] at h

theorem readAccess_next {host : Nat} {form : Word → Reply} {idx : RegIndex} {s t : State}
    (h : readAccess host form idx s = .next t) :
    ∃ w, regRead s idx = .ok w ∧ t = s.respond host (form w) := by
  unfold readAccess at h
  split at h
  · next w hw => exact ⟨w, hw, by simpa using h.symm⟩
  · simp at h

/-- A host access that completes is a read, which adds its reply and nothing else, or a register write
followed by its reply. -/
theorem performAccess_next {host : Nat} {a : Access} {s t : State}
    (h : performAccess host a s = .next t) :
    (∃ idx w reply, regRead s idx = .ok w ∧ t = s.respond host reply) ∨
    (∃ idx v t₀, regWrite idx v s = .next t₀ ∧ t = t₀.respond host .done) := by
  cases a with
  | read idx =>
    obtain ⟨w, hw, ht⟩ := readAccess_next h
    exact .inl ⟨idx, w, _, hw, ht⟩
  | write idx v =>
    obtain ⟨t₀, h₀, ht⟩ := replyDone_next h
    exact .inr ⟨idx, v, t₀, h₀, ht⟩
  | busRead addr size =>
    simp only [performAccess] at h
    split at h
    · next idx _ =>
      obtain ⟨w, hw, ht⟩ := readAccess_next h
      exact .inl ⟨idx, w, _, hw, ht⟩
    · simp at h
    · simp at h
  | busWrite addr data =>
    simp only [performAccess] at h
    split at h
    · next idx _ =>
      obtain ⟨t₀, h₀, ht⟩ := replyDone_next h
      exact .inr ⟨idx, _, t₀, h₀, ht⟩
    · simp at h
    · simp at h

/-- What a step can do: idle with nothing at the port, reset, or one host access. -/
theorem step_next {s t : State} (h : step s = .next t) :
    (s.port = [] ∧ t = s) ∨
    (∃ rest, s.port = .reset :: rest ∧ t = (s.setPort rest).resetUnit) ∨
    (∃ host a rest, s.port = .access host a :: rest ∧
      performAccess host a (s.setPort rest) = .next t) := by
  unfold step portStep at h
  split at h
  · next hp => exact .inl ⟨hp, by simpa using h.symm⟩
  · next e rest hp =>
    cases e with
    | access host a => exact .inr (.inr ⟨host, a, rest, hp, h⟩)
    | reset => exact .inr (.inl ⟨rest, hp, by simpa [performEvent] using h.symm⟩)

theorem step_access {s : State} {host : Nat} {a : Access} {rest : List Event}
    (hp : s.port = .access host a :: rest) : step s = performAccess host a (s.setPort rest) := by
  simp [step, portStep, hp, performEvent]

theorem step_reset {s : State} {rest : List Event} (hp : s.port = .reset :: rest) :
    step s = .next (s.setPort rest).resetUnit := by
  simp [step, portStep, hp, performEvent]

/-- An aligned eight-byte bus access in the window goes to its register (20_memory.md R51). -/
theorem busTarget_register (c : Config) (idx : RegIndex) :
    busTarget c (c.divBase + 8 * idx.toNat) 8 = .register idx := by
  have hi : idx.toNat < 32 := idx.isLt
  have hreach : reachesWindow c.divBase (c.divBase + 8 * idx.toNat) 8 = true := by
    simp [reachesWindow]
    omega
  have halign : (c.divBase + 8 * idx.toNat) % 8 = 0 := by
    simp only [Config.divBase]
    omega
  simp [busTarget, hreach, halign]

/-- An access that reaches into the window and is no register's eight bytes is malformed. -/
theorem busTarget_malformed {c : Config} {addr size : Nat} (hlow : c.divBase < addr + max size 1)
    (hhigh : addr < c.divBase + 256)
    (hreg : ¬ (size = 8 ∧ ∃ idx : RegIndex, addr = c.divBase + 8 * idx.toNat)) :
    busTarget c addr size = .malformed := by
  have hbad : ¬ (size = 8 ∧ addr % 8 = 0) := by
    rintro ⟨rfl, halign⟩
    refine hreg ⟨rfl, BitVec.ofNat 5 ((addr - c.divBase) / 8), ?_⟩
    have hbase : c.divBase = 256 * c.windowBlock := rfl
    rw [BitVec.toNat_ofNat, Nat.mod_eq_of_lt (by omega)]
    omega
  simp [busTarget, reachesWindow, hlow, hhigh, hbad]

end Sys2Proof.Machine
end

