-- ==== Sys2Proof/Tests/Slice0.lean ====
section
/-! SUPPORT. Small tests. Every expected result comes from spec/ (a vector of 95_test_vectors.md or a rule,
named in each comment), and the theorems named `witness_` show that the hypotheses of the statements can be
met, clause by clause, at the ends of their ranges. -/

namespace Sys2Proof.Tests

open Sys2Proof Sys2Proof.Machine

/-! ### Helpers -/

/-- The outcome is a next state with the property. -/
def nextIs (o : Host.Outcome State Fault Refusal) (p : State → Bool) : Bool :=
  match o with
  | .next t => p t
  | .fault _ => false
  | .refused _ => false

/-- The outcome is this fault. -/
def faultIs (o : Host.Outcome State Fault Refusal) (f : Fault) : Bool :=
  match o with
  | .next _ => false
  | .fault g => decide (g = f)
  | .refused _ => false

/-- The outcome is this refusal. -/
def refusalIs (o : Host.Outcome State Fault Refusal) (r : Refusal) : Bool :=
  match o with
  | .next _ => false
  | .fault _ => false
  | .refused q => decide (q = r)

/-- Reset with operands and STATUS. -/
def withOperands (d v : Uint256) (status : Word) : State :=
  { State.reset with a := d, b := v, status := status }

/-- Reset with one access at the port. -/
def waiting (a : Access) : State := { State.reset with port := [.access 1 a] }

/-- A state with a readable result and one access at the port. -/
def waitingValid (a : Access) : State := { waiting a with status := 0x1 }

/-- A state in which unspecified values fault, with one access at the port. -/
def waitingFaulting (a : Access) : State :=
  { waiting a with config := { Config.reference with onUnspecified := .fault } }

/-- All eight operand registers are written. -/
def allWritten : OperandMarks := ⟨true, true, true, true, true, true, true, true⟩

/-- The window of a unit at `DIV_BASE` = 0x300. -/
def placed : State := { State.reset with config := { Config.reference with windowBlock := 3 } }

/-- The largest limb. -/
def ones : Word := 0xffffffffffffffff

/-- `2^63`. -/
def high : Word := 0x8000000000000000

/-- The datapath of vector G4 before step j = 0, with the trial digit of its trace. -/
def g4 : Datapath :=
  { Datapath.reset with
    v := ⟨0xfffffffffffffffe, high, 0, 0⟩
    u := ⟨0, 0, 0x7fffffffffffffff, 0, 0⟩
    qhat := 0xfffffffffffffffe }

/-- The datapath of vector G3 at step j = 0, with the corrected digit of its trace. -/
def g3 : Datapath :=
  { Datapath.reset with v := ⟨high, high, 0, 0⟩, u := ⟨0, 0, 1, 0, 0⟩, qhat := 1 }

/-! ### Syntax and encoding -/

/-- 30_encoding.md R78: `IDX32` is no register. -/
theorem test_wellFormed_refuses_raw_index_32 : (Line.rd (.idx 32)).wellFormed = false := by decide

/-- 30_encoding.md R78: 2^64 is no imm64. -/
theorem test_wellFormed_refuses_wide_imm64 : (Line.wr .a0 (2 ^ 64)).wellFormed = false := by decide

/-- 30_encoding.md R79: 2^256 is no imm256. -/
theorem test_wellFormed_refuses_wide_imm256 :
    (Line.ld256 .a (2 ^ 256)).wellFormed = false ∧
      (Line.calldiv (2 ^ 256) 1).wellFormed = false ∧
      (Line.calldiv 1 (2 ^ 256)).wellFormed = false := by decide

/-- 30_encoding.md R79: LD256 names A or B. -/
theorem test_wellFormed_refuses_ld256_of_results :
    (Line.ld256 .q 0).wellFormed = false ∧ (Line.ld256 .rm 0).wellFormed = false := by decide

/-- 30_encoding.md R71: OPC 00000001 in bits 7:0, RSV zero in bits 63:8. -/
theorem test_divmod_word_decodes :
    decode 0b0000000000000000000000000000000000000000000000000000000000000001#64 = .ok .divmod := by
  decide

/-- 95_test_vectors.md I11: OPC 0x01 with RSV nonzero is illegal. -/
theorem test_reserved_bit_is_illegal :
    decode 0x8000000000000001 = .error .reservedBits ∧ decode 0x0101 = .error .reservedBits := by
  decide

/-- 10_state.md R21 and 30_encoding.md R79: the accesses of LD256 B. -/
theorem test_ld256_b_expands :
    expandLine (.ld256 .b 0x90000000000000024) =
      [.write 4 0x24, .write 5 9, .write 6 0, .write 7 0] := by decide

/-- 10_state.md R21: RM3 is register 15, STATUS is 17. -/
theorem test_register_indices : regIndex .rm3 = 15 ∧ regIndex .status = 17 ∧ regIndex .b0 = 4 := by
  decide

/-! ### DIVMOD -/

/-- 95_test_vectors.md G4, the row with two corrections; the digits and the remainder by its trace. -/
theorem test_divmod_two_corrections :
    nextIs (exec .divmod (withOperands ⟨0, 0, 0x7fffffffffffffff, 0⟩ ⟨0xfffffffffffffffe, high, 0, 0⟩ 0))
      (fun t => decide (t.q = ⟨0xfffffffffffffffc, 0, 0, 0⟩) &&
        decide (t.rm = ⟨0xfffffffffffffff8, 5, 0, 0⟩) && decide (t.status = 0x1)) = true := by
  decide +kernel

/-- 95_test_vectors.md F1: a zero divisor, STATUS 0x2. -/
theorem test_divmod_by_zero :
    nextIs (exec .divmod (withOperands ⟨0, 0, 0, 0⟩ ⟨0, 0, 0, 0⟩ 0x5))
      (fun t => decide (t.status = 0x2)) = true := by decide +kernel

/-! ### The blocks of the datapath -/

/-- 95_test_vectors.md NZ1 to NZ5. -/
theorem test_nlimbs : nlimbs ⟨1, 0, 0, 0⟩ = 1 ∧ nlimbs ⟨0, 1, 0, 0⟩ = 2 ∧ nlimbs ⟨1, 0, 1, 0⟩ = 3 ∧
    nlimbs ⟨0, 0, 0, 1⟩ = 4 ∧ nlimbs ⟨1, 0, 0, 1⟩ = 4 := by decide

/-- 95_test_vectors.md NZ6 to NZ11. -/
theorem test_clz64 : clz64 1 = 63 ∧ clz64 0x0000000100000000 = 31 ∧ clz64 0x7fffffffffffffff = 1 ∧
    clz64 high = 0 ∧ clz64 ones = 0 ∧ clz64 9 = 60 := by decide +kernel

/-- 95_test_vectors.md NZ15 (s = 60, bits cross limbs). -/
theorem test_normalize_crosses_limbs :
    let dp := normalize ⟨6, 0, 9, 0⟩ ⟨0x24, 9, 0, 0⟩ Datapath.reset
    dp.n = 2 ∧ dp.m = 3 ∧ dp.s = 60 ∧ dp.v = ⟨0x4000000000000000, 0x9000000000000002, 0, 0⟩ ∧
      dp.u = ⟨0x6000000000000000, 0, 0x9000000000000000, 0, 0⟩ := by decide +kernel

/-- 95_test_vectors.md NZ14 (s = 0, no shift by 64). -/
theorem test_normalize_without_shift :
    let dp := normalize ⟨0, 0, 0x7fffffffffffffff, 0⟩ ⟨0xfffffffffffffffe, high, 0, 0⟩ Datapath.reset
    dp.s = 0 ∧ dp.v = ⟨0xfffffffffffffffe, high, 0, 0⟩ ∧
      dp.u = ⟨0, 0, 0x7fffffffffffffff, 0, 0⟩ := by decide +kernel

/-- 95_test_vectors.md NZ16 and NZ18. -/
theorem test_denormalize :
    denormalize ⟨high, ones, ones, 0x7fffffffffffffff, 0⟩ 4 63 = ⟨ones, ones, ones, 0⟩ ∧
      denormalize ⟨0xfffffffffffffff8, 5, 0, 0, 0⟩ 2 0 = ⟨0xfffffffffffffff8, 5, 0, 0⟩ := by
  decide +kernel

/-- 42_trial_quotient.md R157: G4 and the clamped G5. -/
theorem test_estimate :
    estimate g4.u g4.v 2 0 = 0xfffffffffffffffe ∧
      estimateRaw ⟨0, 0, high, 0, 0⟩ ⟨1, high, 0, 0⟩ 2 0 = 0x10000000000000000 ∧
      estimate ⟨0, 0, high, 0, 0⟩ ⟨1, high, 0, 0⟩ 2 0 = 0xffffffffffffffff := by decide +kernel

/-- 95_test_vectors.md 5.1: the pretest of G4 takes two steps and stops at rhat = 2^64. -/
theorem test_pretest_two_steps :
    pretested g4.u g4.v 2 0 = (0xfffffffffffffffc, 0x10000000000000000) := by decide +kernel

/-- 95_test_vectors.md RF3: two corrections. -/
theorem test_refine_two_corrections :
    (refine 2 0 g4).qhat = 0xfffffffffffffffc ∧ (refine 2 0 g4).corr = 2 := by decide +kernel

/-- 95_test_vectors.md 5.2: the multiply-subtract of G3, limb by limb. -/
theorem test_mulSub_propagates_borrow :
    (mulSub 2 0 g3).u = ⟨high, 0x7fffffffffffffff, 0, 0, 0⟩ ∧ (mulSub 2 0 g3).borrow = false ∧
      (mulSubLimbs 0 g3 1).borrow = true := by decide +kernel

/-- 95_test_vectors.md S3: the trace of the single-limb path. -/
theorem test_singleLimb_carries_remainder :
    (singleLimbRun ⟨ones, ones, ones, ones⟩ 10 Datapath.reset).qd =
        ⟨0x9999999999999999, 0x9999999999999999, 0x9999999999999999, 0x1999999999999999⟩ ∧
      (singleLimbRun ⟨ones, ones, ones, ones⟩ 10 Datapath.reset).r = 5 := by decide +kernel

/-! ### The interface -/

/-- 95_test_vectors.md I5: what is written is read back. -/
theorem test_operand_write_and_read :
    nextIs (step (waiting (.write 2 0x0123456789abcdef)))
      (fun t => decide (regRead t 2 = .ok 0x0123456789abcdef) && decide (t.a.w2 = 0x0123456789abcdef) &&
        decide (t.status = 0)) = true := by decide +kernel

/-- 95_test_vectors.md I6 to I8. -/
theorem test_access_rights :
    faultIs (step (waiting (.read 16))) (.accessError (.register 16)) = true ∧
      faultIs (step (waiting (.write 8 0))) (.accessError (.register 8)) = true ∧
      faultIs (step (waiting (.write 17 0))) (.accessError (.register 17)) = true ∧
      faultIs (step (waiting (.read 18))) (.accessError (.register 18)) = true ∧
      faultIs (step (waiting (.write 31 1))) (.accessError (.register 31)) = true := by decide +kernel

/-- 95_test_vectors.md I9 at `DIV_BASE` = 0x300, and an access the platform answers. -/
theorem test_bus_access_shapes :
    faultIs (performAccess 0 (.busRead 0x300 4) placed) (.accessError (.malformed 0x300 4)) = true ∧
      faultIs (performAccess 0 (.busRead 0x304 8) placed) (.accessError (.malformed 0x304 8)) = true ∧
      refusalIs (performAccess 0 (.busRead 0x2f8 8) placed) (.outsideWindow 0x2f8 8) = true := by
  decide +kernel

/-- 95_test_vectors.md I10: the bytes of A0 in increasing address order. -/
theorem test_bus_read_is_little_endian :
    nextIs (performAccess 0 (.busRead 0x300 8) { placed with a := ⟨0x0807060504030201, 0, 0, 0⟩ })
      (fun t => decide (t.responses = [⟨0, .bytes [1, 2, 3, 4, 5, 6, 7, 8]⟩])) = true := by
  decide +kernel

/-- 95_test_vectors.md I12: an illegal word after a result leaves STATUS 0x5. -/
theorem test_illegal_word_keeps_result :
    nextIs (step (waitingValid (.write 16 2)))
      (fun t => decide (regRead t 17 = .ok 0x5) && decide (regRead t 8 = .ok 0)) = true := by
  decide +kernel

/-- 95_test_vectors.md I3 and I4: the faults of the spec's model. -/
theorem test_unwritten_faults :
    faultIs (step (waitingFaulting (.read 0))) (.unwrittenRegister 0) = true ∧
      faultIs (step { waitingFaulting (.write 16 1) with
        written := ⟨true, true, true, true, false, false, false, false⟩ }) .unwrittenOperand = true := by
  decide +kernel

/-- 95_test_vectors.md I2: Q0 cannot be read after reset in the spec's model, and its hardware goes on. -/
theorem test_result_not_valid_after_reset :
    faultIs (step (waitingFaulting (.read 8))) (.resultNotValid 8) = true ∧
      nextIs (step (waiting (.read 8))) (fun _ => true) = true := by decide +kernel

/-- The first command word after reset runs DIVMOD (assumption 12): B holds its reset value 0, so the
outcome is DivisionByZero. -/
theorem test_first_command_after_reset :
    nextIs (step (State.reset.withFetchWord 64 1))
      (fun t => decide (t.status = 0x2) && decide (t.responses = [⟨0, .done⟩])) = true := by
  decide +kernel

/-! ### Witnesses: the hypotheses of the statements can be met -/

/-- CommandDecodedByOpcodeAndReserved: both cases of the decode. -/
theorem witness_commandWords :
    ((0x1 : Word).extractLsb' 8 56 = 0 ∧ (0x1 : Word).extractLsb' 0 8 = 0x01) ∧
      ¬ ((0x101 : Word).extractLsb' 8 56 = 0 ∧ (0x101 : Word).extractLsb' 0 8 = 0x01) := by decide

/-- StepRunsTheDecodedCommand: a command write by index, and as eight bytes. -/
theorem witness_decodedCommand :
    decode 1 = .ok .divmod ∧
      (waiting (.write cmdIndex 1)).port = .access 1 (.write cmdIndex 1) :: [] ∧
      (waiting (.busWrite 128 (bytesOfWord 1))).port =
        .access 1 (.busWrite (State.reset.config.divBase + 128) (bytesOfWord 1)) :: [] := by decide

/-- PlacedCommandWordRunsNext: the ends of the range of other words. -/
theorem witness_otherWords :
    (0 < 2 ^ 64 ∧ 0 ≠ 0x0000000000000001) ∧
      (2 ^ 64 - 1 < 2 ^ 64 ∧ 2 ^ 64 - 1 ≠ 0x0000000000000001) := by decide

/-- IllegalCommandRecordsOnlyIllcmd and IllegalCommandKeepsTheInternalState: by index, and as eight bytes. -/
theorem witness_illegalCommand :
    (waiting (.write cmdIndex 3)).port = .access 1 (.write cmdIndex 3) :: [] ∧
      (waiting (.busWrite 128 (bytesOfWord 3))).port =
        .access 1 (.busWrite (State.reset.config.divBase + 128) (bytesOfWord 3)) :: [] ∧
      (3 : Word) ≠ 0x0000000000000001 := by decide

/-- IdlePortHoldsTheState: a state other than reset with nothing at the port. -/
theorem witness_idle : placed.port = [] := rfl

/-- StepTakesExactlyTheNextEvent, OnlyCommandWritesChangeResults and OnlyOperandWritesChangeOperands: a
step that completes, with an event that is neither. -/
theorem witness_readEvent :
    (∃ t, step (waiting (.read 17)) = .next t) ∧
      (∀ e rest, (waiting (.read 17)).port = e :: rest →
        changesResults (waiting (.read 17)).config e = false ∧
          changesOperands (waiting (.read 17)).config e = false) := by
  refine ⟨⟨_, rfl⟩, fun e rest h => ?_⟩
  obtain ⟨rfl, _⟩ := List.cons.inj h
  decide

/-- ResetEventClearsStatusAndMarks and ResetLeavesStatusZeroAndNoResult: a reset at the port, in a state whose
unspecified values fault. -/
theorem witness_resetEvent :
    { waitingFaulting (.read 0) with port := [.reset] }.port = Event.reset :: [] ∧
      (waitingFaulting (.read 0)).config.onUnspecified = .fault := by decide

/-- The result registers: both ends of `8 .. 15`. -/
theorem witness_resultIndices :
    (8 ≤ (8 : RegIndex).toNat ∧ (8 : RegIndex).toNat < 16) ∧
      (8 ≤ (15 : RegIndex).toNat ∧ (15 : RegIndex).toNat < 16) := by decide

/-- ReadReturnsTheRegisterAndChangesNothing: each clause. -/
theorem witness_reads :
    ((7 : RegIndex).toNat < 8 ∧ (waiting (.read 7)).operandReadable 7 = true) ∧
      ((0 : RegIndex).toNat < 8 ∧ (waitingFaulting (.read 0)).operandReadable 0 = false) ∧
      (waiting (.read 15)).resultReadable = true ∧
      { waitingFaulting (.read 15) with status := 1 }.resultReadable = true ∧
      (waitingFaulting (.read 8)).resultReadable = false ∧
      (17 : RegIndex).toNat = 17 ∧ (16 : RegIndex).toNat = 16 ∧ 18 ≤ (18 : RegIndex).toNat ∧
      18 ≤ (31 : RegIndex).toNat ∧
      (waiting (.read 7)).port = .access 1 (.read 7) :: [] := by decide

/-- StatusReadsItsFieldsAndZeroAbove: a legal STATUS. -/
theorem witness_legalStatus : statusLegal (withOperands Uint256.zero Uint256.zero 0x6).status = true := by
  decide

/-- WriteChangesOnlyItsOperandRegister: each clause at its ends. -/
theorem witness_writes :
    (waiting (.write 7 5)).port = .access 1 (.write 7 5) :: [] ∧
      (0 : RegIndex).toNat < 8 ∧ (7 : RegIndex).toNat < 8 ∧ (16 : RegIndex).toNat = 16 ∧
      (8 ≤ (8 : RegIndex).toNat ∧ (8 : RegIndex).toNat ≠ 16) ∧
      (8 ≤ (15 : RegIndex).toNat ∧ (15 : RegIndex).toNat ≠ 16) ∧
      (8 ≤ (17 : RegIndex).toNat ∧ (17 : RegIndex).toNat ≠ 16) ∧
      (8 ≤ (31 : RegIndex).toNat ∧ (31 : RegIndex).toNat ≠ 16) := by decide

/-- OperandReadsBackWhatWasWritten and OperandWritesAreIdempotentAndCommute. -/
theorem witness_operandIndices : (7 : RegIndex).toNat < 8 ∧ 0 < 8 ∧ 7 < 8 ∧ (0 : Nat) ≠ 7 := by decide

/-- LoadOperandInAnyLimbOrder: the spec's own order, for A and for B, at the largest operand. -/
theorem witness_ld256 :
    2 ^ 256 - 1 < 2 ^ 256 ∧ (ld256 .a (2 ^ 256 - 1)).Perm (ld256 .a (2 ^ 256 - 1)) ∧
      (ld256 .b 5).Perm (ld256 .b 5) ∧
      { State.reset with port := issueBy 1 (ld256 .a 5) }.port = issueBy 1 (ld256 .a 5) ++ [] ∧
      { State.reset with port := issueBy 1 (ld256 .b 5) }.port = issueBy 1 (ld256 .b 5) ++ [] :=
  ⟨by decide, .refl _, .refl _, by decide, by decide⟩

/-- AccessErrorOnEveryListedCause: the bus clauses at the ends of the window. -/
theorem witness_accessErrors :
    (placed.config.divBase ≤ 0x300 ∧ 0x300 < placed.config.divBase + 256 ∧ (4 ≠ 8 ∨ 0x300 % 8 ≠ 0)) ∧
      (placed.config.divBase ≤ 0x3ff ∧ 0x3ff < placed.config.divBase + 256 ∧
        (8 ≠ 8 ∨ 0x3ff % 8 ≠ 0)) ∧
      (waiting (.busWrite 1 [])).port = .access 1 (.busWrite 1 []) :: [] := by decide

/-- AccessErrorOnEveryListedCause: the register clauses at the ends of their ranges. -/
theorem witness_accessErrorIndices :
    (waiting (.read 16)).port = .access 1 (.read 16) :: [] ∧
      (waiting (.write 17 0)).port = .access 1 (.write 17 0) :: [] ∧
      (8 ≤ (8 : RegIndex).toNat ∧ (15 : RegIndex).toNat < 16) ∧
      (18 ≤ (18 : RegIndex).toNat ∧ 18 ≤ (31 : RegIndex).toNat) := by decide

/-- ByteOffsetViewIsTheRegisterMap: a read that gives a value and one that faults, and an address of the
window that is no register's. -/
theorem witness_busView :
    regRead placed 0 = .ok 0 ∧ regRead placed 31 = .error (.accessError (.register 31)) ∧
      (placed.config.divBase ≤ 0x301 ∧ 0x301 < placed.config.divBase + 256 ∧
        ¬ (8 = 8 ∧ ∃ idx : RegIndex, 0x301 = placed.config.divBase + 8 * idx.toNat)) := by decide

/-- AccessOutsideTheWindowIsRefused: just below and just above the window. -/
theorem witness_outside :
    0x2f8 + max 8 1 ≤ placed.config.divBase ∧ placed.config.divBase + 256 ≤ 0x400 := by decide

/-- AccessReachingIntoTheWindowIsAnAccessError: one byte into the window from below, no byte at its first
address, and past its end; as a read, and as a write of the same sizes. -/
theorem witness_reaching :
    (0x2f9 < placed.config.divBase + 256 ∧ placed.config.divBase < 0x2f9 + max 8 1 ∧
        ¬ (8 = 8 ∧ ∃ idx : RegIndex, 0x2f9 = placed.config.divBase + 8 * idx.toNat)) ∧
      (0x300 < placed.config.divBase + 256 ∧ placed.config.divBase < 0x300 + max ([] : List Byte).length 1 ∧
        ¬ (([] : List Byte).length = 8 ∧
          ∃ idx : RegIndex, 0x300 = placed.config.divBase + 8 * idx.toNat)) ∧
      (0x3ff < placed.config.divBase + 256 ∧ placed.config.divBase < 0x3ff + max 8 1 ∧
        ¬ (8 = 8 ∧ ∃ idx : RegIndex, 0x3ff = placed.config.divBase + 8 * idx.toNat)) := by decide

/-- BytesOfARegisterAreLittleEndian. -/
theorem witness_eightBytes : 7 < 8 ∧ [1, 2, 3, 4, 5, 6, 7, (8 : Byte)].length = 8 ∧ 31 < 32 := by decide

/-- HostIdentityNeverMatters: an access that completes, one that faults, one that is refused. -/
theorem witness_hostAccesses :
    nextIs (performAccess 0 (.read 17) placed) (fun _ => true) = true ∧
      faultIs (performAccess 0 (.read 16) placed) (.accessError (.register 16)) = true ∧
      refusalIs (performAccess 0 (.busRead 0 8) placed) (.outsideWindow 0 8) = true := by decide

/-- UnwrittenOperandsFaultExactlyWhereAsked: both configurations, with an unwritten register and with none. -/
theorem witness_unwritten :
    (waitingFaulting (.read 0)).config.onUnspecified = .fault ∧
      (waitingFaulting (.read 0)).written.isWritten 7 = false ∧
      (∀ i, i < 8 → allWritten.isWritten i = true) ∧
      State.reset.config.onUnspecified = .goOn := by decide

/-- UnwrittenOperandsFaultExactlyWhereAsked: an operand register read that is a use and one that is none, a
result register, a command that is a use and one that is none; by index, and as eight bytes. -/
theorem witness_unwrittenUse :
    (waiting (.read 7)).unwrittenUse = some (.register 7) ∧
      (waiting (.busRead (State.reset.config.divBase + 8 * (0 : RegIndex).toNat) 8)).unwrittenUse =
        some (.register 0) ∧
      { waiting (.read 7) with written := allWritten }.unwrittenUse = none ∧
      (waiting (.read 8)).unwrittenUse = none ∧
      (waiting (.write cmdIndex 1)).unwrittenUse = some .operand ∧
      (waiting (.busWrite (State.reset.config.divBase + 128) (bytesOfWord 1))).unwrittenUse =
        some .operand ∧
      (waiting (.write cmdIndex 2)).unwrittenUse = none ∧
      { waiting (.write cmdIndex 1) with written := allWritten }.unwrittenUse = none := by
  decide +kernel

/-- StepsOnWrittenOperandsKeepTheOutcomeWritten: a DIVMOD on written operands, and a result before it; and a
read of STATUS where unspecified values fault. -/
theorem witness_outcomeWritten :
    { waitingValid (.write cmdIndex 1) with written := allWritten }.unwrittenUse = none ∧
      OutcomeFromWritten { waitingValid (.write cmdIndex 1) with written := allWritten } ∧
      nextIs (step { waitingValid (.write cmdIndex 1) with written := allWritten })
        (fun _ => true) = true ∧
      (waitingFaulting (.read 17)).config.onUnspecified = .fault ∧
      OutcomeFromWritten (waitingFaulting (.read 17)) ∧
      nextIs (step (waitingFaulting (.read 17))) (fun _ => true) = true :=
  ⟨by decide +kernel, fun _ => rfl, by decide +kernel, rfl, fun h => absurd h (by decide),
    by decide +kernel⟩

/-- The DIVMOD statements: a nonzero and a zero divisor, with operands ready in a state whose unspecified
values fault and in one that goes on. -/
theorem witness_operandsReady :
    (withOperands ⟨5, 0, 0, 0⟩ ⟨7, 0, 0, 0⟩ 0).operandsReady = true ∧
      (withOperands ⟨5, 0, 0, 0⟩ ⟨7, 0, 0, 0⟩ 0).b.val ≠ 0 ∧
      (withOperands ⟨5, 0, 0, 0⟩ ⟨0, 0, 0, 0⟩ 0).b.val = 0 ∧
      { waitingFaulting (.read 0) with written := allWritten }.operandsReady = true ∧
      { waitingFaulting (.read 0) with written := allWritten }.b.val = 0 := by decide

/-- DivmodDependsOnlyOnTheOperands: two states that differ in all else. -/
theorem witness_sameOperands :
    (withOperands ⟨5, 0, 0, 0⟩ ⟨7, 0, 0, 0⟩ 0x5).a =
        { waitingFaulting (.read 0) with
          a := ⟨5, 0, 0, 0⟩, b := ⟨7, 0, 0, 0⟩, written := allWritten }.a ∧
      (withOperands ⟨5, 0, 0, 0⟩ ⟨7, 0, 0, 0⟩ 0x5).b =
        { waitingFaulting (.read 0) with
          a := ⟨5, 0, 0, 0⟩, b := ⟨7, 0, 0, 0⟩, written := allWritten }.b ∧
      (withOperands ⟨5, 0, 0, 0⟩ ⟨7, 0, 0, 0⟩ 0x5).status ≠ (waitingFaulting (.read 0)).status := by decide

/-- SecondDivmodRepeatsTheFirst and StatusFollowsTheCommandTable: a DIVMOD that completes. -/
theorem witness_divmodCompletes :
    nextIs (exec .divmod (withOperands ⟨5, 0, 0, 0⟩ ⟨7, 0, 0, 0⟩ 0)) (fun _ => true) = true ∧
      nextIs (issueCommand 1 (withOperands ⟨5, 0, 0, 0⟩ ⟨7, 0, 0, 0⟩ 0)) (fun _ => true) = true ∧
      nextIs (issueCommand 1 (withOperands ⟨5, 0, 0, 0⟩ ⟨0, 0, 0, 0⟩ 0)) (fun _ => true) = true ∧
      nextIs (issueCommand 2 (withOperands ⟨5, 0, 0, 0⟩ ⟨7, 0, 0, 0⟩ 2))
        (fun t => statusDbz t.status && statusIllcmd t.status) = true := by decide +kernel

/-- OutcomesHaveTheirPriority. -/
theorem witness_priority :
    State.reset.b.val = 0 ∧ State.reset.operandsReady = true ∧ ([] : List Byte).length ≠ 8 ∧
      (0 : Word) ≠ 0x0000000000000001 := by decide

/-- DividePathsAreTestedInOrder: each path (vectors F4, S6, F7, G4), each with a nonzero divisor. -/
theorem witness_paths :
    (Uint256.val ⟨7, 0, 0, 0⟩ ≠ 0 ∧ Uint256.val ⟨7, 0, 0, 0⟩ > Uint256.val ⟨5, 0, 0, 0⟩) ∧
      (Uint256.val ⟨7, 0, 0, 0⟩ ≤ Uint256.val ⟨1000, 0, 0, 0⟩ ∧ nlimbs ⟨7, 0, 0, 0⟩ = 1) ∧
      (nlimbs ⟨5, 1, 0, 0⟩ ≠ 1 ∧ Uint256.val ⟨5, 1, 0, 0⟩ ≠ 0) ∧
      (g4.v.val ≤ Uint256.val ⟨0, 0, 0x7fffffffffffffff, 0⟩ ∧ nlimbs g4.v ≠ 1 ∧
        (⟨0, 0, 0x7fffffffffffffff, 0⟩ : Uint256) ≠ g4.v) := by decide +kernel

/-- SingleLimbDivisionIsExact: the ends of the divisor's range, and a running remainder below it. -/
theorem witness_singleLimb :
    (1 : Word) ≠ 0 ∧ ones ≠ 0 ∧ 3 < 4 ∧ Datapath.reset.r.toNat < (1 : Word).toNat := by decide

/-- EveryPathGivesTheExactPair: its one-limb clause. -/
theorem witness_generalOneLimb :
    nlimbs ⟨7, 0, 0, 0⟩ = 1 ∧ Uint256.val ⟨7, 0, 0, 0⟩ ≤ Uint256.val ⟨1000, 0, 0, 0⟩ := by
  decide +kernel

/-- The normalizer's statements: nonzero values, and one limb. -/
theorem witness_nonzero : Uint256.val ⟨0, 0, 0, 1⟩ ≠ 0 ∧ (1 : Word) ≠ 0 := by decide +kernel

/-- DenormalizationUndoesTheShift: vector NZ17, and the ends of its ranges. -/
theorem witness_denormalize :
    2 ≤ 4 ∧ 63 ≤ 63 ∧
      valSlice (Uint320.limb ⟨high, 0x7fffffffffffffff, 0, 0, 0⟩) 0 2 = (2 ^ 64 - 1) * 2 ^ 63 ∧
      valSlice (Uint320.limb ⟨5, 0, 0, 0, 0⟩) 0 4 = 5 * 2 ^ 0 := by decide +kernel

/-- DigitLoopStartsReady, DigitLoopDividesTheNormalizedOperands: vector G4. -/
theorem witness_loopOperands :
    g4.v.val ≠ 0 ∧ g4.v.val ≤ Uint256.val ⟨0, 0, 0x7fffffffffffffff, 0⟩ := by decide +kernel

/-- The statements about one digit step: vector G4 at j = 0, and a one-limb divisor at j = 3. -/
theorem witness_digitReady :
    DigitReady g4.u g4.v 2 0 ∧ DigitReady ⟨0, 0, 0, 5, 0⟩ ⟨high, 0, 0, 0⟩ 1 3 ∧ 2 ≤ 2 := by
  refine ⟨⟨?_, ?_, ?_, ?_⟩, ⟨?_, ?_, ?_, ?_⟩, ?_⟩ <;> decide +kernel

/-- LimbProductComparesExactly and MultiplySubtractIsExact: the largest counts. -/
theorem witness_counts : 4 ≤ 4 ∧ 0 + 4 ≤ 4 ∧ 4 + 0 ≤ 4 := by decide

/-- RefinerReturnsTheTrueDigit: vector G4, whose trial digit is two too large, and vector G3, whose digit
is the true one. -/
theorem witness_refiner :
    2 ≤ 4 ∧ 0 < divisorValue g4.v 2 ∧
      g4.qhat.toNat = workingValue g4.u 2 0 / divisorValue g4.v 2 + 2 ∧
      0 < divisorValue g3.v 2 ∧
      g3.qhat.toNat = workingValue g3.u 2 0 / divisorValue g3.v 2 := by decide +kernel

/-- EveryStepKeepsTheMachineInvariant: a state that meets it and steps on. -/
theorem witness_invariant : Inv (waiting (.write 16 1)) ∧
    nextIs (step (waiting (.write 16 1))) (fun _ => true) = true := by
  exact ⟨⟨by decide, fun h => absurd h (by decide)⟩, by decide +kernel⟩

/-- EveryStepKeepsTheMachineInvariant: a state that meets it and holds a result (1000 by 7). -/
theorem witness_invariant_with_result :
    Inv { waitingValid (.read 8) with q := ⟨142, 0, 0, 0⟩, rm := ⟨6, 0, 0, 0⟩ } := by
  exact ⟨by decide, fun _ =>
    ⟨1000, 7, by decide, by decide, by decide, by decide +kernel, by decide +kernel⟩⟩

/-- InstancesShareNoState: a step of the second of two units. -/
theorem witness_platform :
    (∃ p', ({ units := [State.reset, placed] } : Platform).stepUnit 1 = .next p') ∧
      ({ units := [State.reset, placed] } : Platform).units[1]? = some placed ∧ 0 ≠ 1 :=
  ⟨⟨_, rfl⟩, rfl, by decide⟩

end Sys2Proof.Tests
end

section
/-! The byte order of the byte-offset view (20_memory.md R54): what byte `k` of a number's low 64 bits is, how
bytes and registers give each other back, and where the bytes of a 256-bit value stand in its group. -/

namespace Sys2Proof

/-! ### Bytes of a register -/

theorem bytesOfWord_eq_map (w : Word) : bytesOfWord w = (List.range 8).map (byteOfWord w) := rfl

@[simp] theorem length_bytesOfWord (w : Word) : (bytesOfWord w).length = 8 := rfl

theorem getElem?_bytesOfWord (w : Word) {k : Nat} (hk : k < 8) :
    (bytesOfWord w)[k]? = some (byteOfWord w k) := by
  simp [bytesOfWord_eq_map, hk]

theorem byteOfWord_ofNat (x : Nat) {k : Nat} (hk : k < 8) :
    byteOfWord (BitVec.ofNat 64 x) k = BitVec.ofNat 8 (x / 2 ^ (8 * k)) := by
  ext i hi
  have hlow : i + 8 * k < 64 := by omega
  simp [byteOfWord, ← BitVec.getLsbD_eq_getElem, BitVec.getLsbD_ofNat, hlow, hi,
    Nat.testBit_div_two_pow, Nat.add_comm]

/-! ### Bytes and registers give each other back -/

/-- The `n` low bytes of a number are the bytes of its value modulo `256 ^ n`. -/
theorem bytesVal_map_range (x n : Nat) :
    bytesVal ((List.range n).map fun k => BitVec.ofNat 8 (x / 2 ^ (8 * k))) = x % 2 ^ (8 * n) := by
  induction n generalizing x with
  | zero => simp [bytesVal, Nat.mod_one]
  | succ n ih =>
    have hshift (k : Nat) : x / 2 ^ (8 * (k + 1)) = x / 2 ^ 8 / 2 ^ (8 * k) := by
      rw [Nat.div_div_eq_div_mul, ← Nat.pow_add, Nat.mul_succ, Nat.add_comm]
    have hsplit : x % 2 ^ (8 * (n + 1)) = x % 2 ^ 8 + 2 ^ 8 * (x / 2 ^ 8 % 2 ^ (8 * n)) := by
      rw [Nat.mul_succ, Nat.add_comm, Nat.pow_add, Nat.mod_mul]
    rw [List.range_succ_eq_map, List.map_cons, List.map_map, hsplit, ← ih (x / 2 ^ 8)]
    simp [bytesVal, Function.comp_def, hshift]

/-- The bytes of a list are the base-256 digits of its value, least significant first. -/
theorem ofNat_bytesVal_div (bs : List Byte) (k : Nat) (hk : k < bs.length) :
    BitVec.ofNat 8 (bytesVal bs / 2 ^ (8 * k)) = bs[k] := by
  induction bs generalizing k with
  | nil => simp at hk
  | cons b bs ih =>
    have hb : b.toNat < 256 := b.isLt
    cases k with
    | zero =>
      apply BitVec.eq_of_toNat_eq
      simp [bytesVal]
      omega
    | succ k =>
      have hdiv : bytesVal (b :: bs) / 2 ^ (8 * (k + 1)) = bytesVal bs / 2 ^ (8 * k) := by
        have hhead : bytesVal (b :: bs) / 2 ^ 8 = bytesVal bs := by
          simp only [bytesVal]
          omega
        rw [Nat.mul_succ, Nat.add_comm, Nat.pow_add, ← Nat.div_div_eq_div_mul, hhead]
      rw [hdiv]
      exact ih k (by simpa using hk)

@[simp] theorem wordOfBytes_bytesOfWord (w : Word) : wordOfBytes (bytesOfWord w) = w := by
  have hbytes : bytesOfWord w = (List.range 8).map fun k => BitVec.ofNat 8 (w.toNat / 2 ^ (8 * k)) := by
    rw [bytesOfWord_eq_map]
    refine List.map_congr_left fun k hk => ?_
    rw [← byteOfWord_ofNat w.toNat (List.mem_range.mp hk), BitVec.ofNat_toNat, BitVec.setWidth_eq]
  rw [hbytes, wordOfBytes, bytesVal_map_range, Nat.mod_eq_of_lt w.isLt, BitVec.ofNat_toNat,
    BitVec.setWidth_eq]

theorem bytesOfWord_wordOfBytes {bs : List Byte} (h : bs.length = 8) :
    bytesOfWord (wordOfBytes bs) = bs := by
  refine List.ext_getElem (by simp [h]) fun k hk hbs => ?_
  have hbyte : (bytesOfWord (wordOfBytes bs))[k]? = some bs[k] := by
    rw [getElem?_bytesOfWord _ hk, wordOfBytes, byteOfWord_ofNat _ hk, ofNat_bytesVal_div bs k hbs]
  exact (List.getElem?_eq_some_iff.mp hbyte).2

/-! ### Bytes of a 256-bit value -/

/-- A limb of a 256-bit value is that limb of its number (30_encoding.md R76). -/
theorem Uint256.limb_eq_limbOfNat (x : Uint256) {k : Nat} (hk : k < 4) :
    x.limb k = limbOfNat x.val k := by
  have hx : x = Uint256.ofNat x.val := Uint256.val_injective (Uint256.val_ofNat x.val_lt).symm
  have hlimb (y : Nat) : (Uint256.ofNat y).limb k = limbOfNat y k := by
    interval_cases k <;> rfl
  rw [← hlimb, ← hx]

theorem Uint256.getElem?_bytesOfWord_limb (x : Uint256) {i : Nat} (hi : i < 32) :
    (bytesOfWord (x.limb (i / 8)))[i % 8]? = some (BitVec.ofNat 8 (x.val / 2 ^ (8 * i))) := by
  have hk : i % 8 < 8 := Nat.mod_lt _ (by decide)
  have hpos : 64 * (i / 8) + 8 * (i % 8) = 8 * i := by omega
  rw [getElem?_bytesOfWord _ hk, x.limb_eq_limbOfNat (by omega), limbOfNat, byteOfWord_ofNat _ hk,
    Nat.div_div_eq_div_mul, ← Nat.pow_add, hpos]

end Sys2Proof

namespace Sys2Proof.Machine

variable (s : State) {k : Nat}

/-! ### The data register that holds limb `k` of each group (30_encoding.md R73) -/

theorem State.cell_a (hk : k < 4) : s.cell (0 + k) = s.a.limb k := by
  simp [State.cell, hk]

theorem State.cell_b (hk : k < 4) : s.cell (4 + k) = s.b.limb k := by
  have h8 : 4 + k < 8 := by omega
  simp [State.cell, h8]

theorem State.cell_q (hk : k < 4) : s.cell (8 + k) = s.q.limb k := by
  have h4 : ¬ 8 + k < 4 := by omega
  have h12 : 8 + k < 12 := by omega
  simp [State.cell, h4, h12]

theorem State.cell_rm : s.cell (12 + k) = s.rm.limb k := by
  have h4 : ¬ 12 + k < 4 := by omega
  have h8 : ¬ 12 + k < 8 := by omega
  simp [State.cell, h4, h8]

end Sys2Proof.Machine
end

section
namespace Sys2Proof.Machine

/-- Settles O20: byte `8 j + k` of a 256-bit value is byte `k` of its limb `j`, which the group's register `j`
holds. -/
theorem bytesOfARegisterAreLittleEndian : Obligations.BytesOfARegisterAreLittleEndian := by
  unfold Obligations.BytesOfARegisterAreLittleEndian
  refine ⟨fun w k hk => getElem?_bytesOfWord w hk,
    fun w => ⟨length_bytesOfWord w, wordOfBytes_bytesOfWord w⟩,
    fun bs h => bytesOfWord_wordOfBytes h, fun s i hi => ?_⟩
  have hlimb : i / 8 < 4 := by omega
  rw [s.cell_a hlimb, s.cell_b hlimb, s.cell_q hlimb, s.cell_rm]
  exact ⟨s.a.getElem?_bytesOfWord_limb hi, s.b.getElem?_bytesOfWord_limb hi,
    s.q.getElem?_bytesOfWord_limb hi, s.rm.getElem?_bytesOfWord_limb hi⟩

end Sys2Proof.Machine
end

section
/-! Register accesses by index (20_memory.md R55, R56) and by byte address (R51, R52), one equation per case. -/

namespace Sys2Proof.Machine

variable {s : State} {host : Nat} {idx : RegIndex} {v : Word}

/-! ### `RegWrite` and the access that makes it -/

theorem regWrite_operand (h : idx.toNat < 8) :
    regWrite idx v s = .next (s.writeOperand idx.toNat v) := by
  simp [regWrite, h]

theorem regWrite_command (h : idx.toNat = 16) : regWrite idx v s = issueCommand v s := by
  simp [regWrite, h]

theorem regWrite_denied (h8 : 8 ≤ idx.toNat) (h16 : idx.toNat ≠ 16) :
    regWrite idx v s = .fault (.accessError (.register idx)) := by
  simp [regWrite, h8, h16]

theorem step_write {rest : List Event} (hp : s.port = .access host (.write idx v) :: rest) :
    step s = replyDone host (regWrite idx v (s.setPort rest)) := step_access hp

@[simp] theorem State.cell_respond (reply : Reply) (k : Nat) :
    (s.respond host reply).cell k = s.cell k := rfl

@[simp] theorem State.cell_setPort (rest : List Event) (k : Nat) :
    (s.setPort rest).cell k = s.cell k := rfl

/-! ### A read access -/

theorem readAccess_ok {form : Word → Reply} {w : Word} (h : regRead s idx = .ok w) :
    readAccess host form idx s = .next (s.respond host (form w)) := by
  simp [readAccess, h]

theorem readAccess_error {form : Word → Reply} {f : Fault} (h : regRead s idx = .error f) :
    readAccess host form idx s = .fault f := by
  simp [readAccess, h]

/-! ### Bus accesses in the window -/

theorem performAccess_busRead_register (s : State) (host : Nat) (idx : RegIndex) :
    performAccess host (.busRead (s.config.divBase + 8 * idx.toNat) 8) s =
      readAccess host (fun w => .bytes (bytesOfWord w)) idx s := by
  simp [performAccess, busTarget_register]

theorem performAccess_busWrite_register (s : State) (host : Nat) (idx : RegIndex) (v : Word) :
    performAccess host (.busWrite (s.config.divBase + 8 * idx.toNat) (bytesOfWord v)) s =
      performAccess host (.write idx v) s := by
  simp [performAccess, busTarget_register]

theorem performAccess_busRead_malformed {addr size : Nat}
    (h : busTarget s.config addr size = .malformed) :
    performAccess host (.busRead addr size) s = .fault (.accessError (.malformed addr size)) := by
  simp [performAccess, h]

theorem performAccess_busWrite_malformed {addr : Nat} {data : List Byte}
    (h : busTarget s.config addr data.length = .malformed) :
    performAccess host (.busWrite addr data) s =
      .fault (.accessError (.malformed addr data.length)) := by
  simp [performAccess, h]

end Sys2Proof.Machine
end

section
namespace Sys2Proof.Machine

/-- Settles O18: the aligned eight bytes of a register go to that register, and every other access at an
address of the window is malformed. -/
theorem byteOffsetViewIsTheRegisterMap : Obligations.ByteOffsetViewIsTheRegisterMap := by
  unfold Obligations.ByteOffsetViewIsTheRegisterMap
  refine fun s host => ⟨Dvd.intro _ rfl, fun idx => ⟨?read, ?readFault, ?write⟩,
    fun addr hlow hhigh => ⟨?otherRead, ?otherWrite⟩⟩
  case read =>
    intro w hw
    rw [performAccess_busRead_register, readAccess_ok hw]
  case readFault =>
    intro f hf
    rw [performAccess_busRead_register, readAccess_error hf]
  case write => exact performAccess_busWrite_register s host idx
  case otherRead =>
    intro size hreg
    exact performAccess_busRead_malformed (busTarget_malformed (by omega) hhigh hreg)
  case otherWrite =>
    intro data hreg
    exact performAccess_busWrite_malformed (busTarget_malformed (by omega) hhigh hreg)

/-- Settles O13, by the three cases of `RegWrite`: an operand register, CMD, and no right to write. -/
theorem writeChangesOnlyItsOperandRegister : Obligations.WriteChangesOnlyItsOperandRegister := by
  unfold Obligations.WriteChangesOnlyItsOperandRegister
  intro s host idx v rest hp
  rw [step_write hp]
  refine ⟨fun h8 => ?operand, fun h16 => ?command, fun h8 h16 => ?denied⟩
  case operand =>
    rw [regWrite_operand h8]
    refine ⟨_, rfl, ?_⟩
    simp +contextual [State.cell_writeOperand, OperandMarks.isWritten_mark, h8]
  case command => rw [regWrite_command h16]
  case denied => rw [regWrite_denied h8 h16]; rfl

end Sys2Proof.Machine
end

section
/-! Command words and operand groups: the two fields of a word (30_encoding.md R70) determine the word, its
decode, and what the command does (R72); four registers give the value of their group (R75). -/

namespace Sys2Proof

variable {w : Word}

theorem rsvField_append_opcField (w : Word) : rsvField w ++ opcField w = w := by
  rw [rsvField, opcField,
    BitVec.extractLsb'_append_extractLsb'_eq_extractLsb' (start₁ := 0) (len₁ := 8) rfl,
    BitVec.extractLsb'_eq_self]

theorem divmodFields_iff : rsvField w = 0 ∧ opcField w = 0x01 ↔ w = encode .divmod := by
  constructor
  · rintro ⟨hrsv, hopc⟩
    rw [← rsvField_append_opcField w, hrsv, hopc, encode]
  · rintro rfl
    decide

theorem decode_divmod (h : rsvField w = 0 ∧ opcField w = 0x01) : decode w = .ok .divmod := by
  rw [decode, if_pos h.1, if_pos h.2]

theorem decode_illegal (h : ¬ (rsvField w = 0 ∧ opcField w = 0x01)) :
    ∃ e, decode w = .error e := by
  by_cases hrsv : rsvField w = 0
  · have hopc : opcField w ≠ 0x01 := fun hopc => h ⟨hrsv, hopc⟩
    exact ⟨.undefinedOpcode (opcField w), by rw [decode, if_pos hrsv, if_neg hopc]⟩
  · exact ⟨.reservedBits, by rw [decode, if_neg hrsv]⟩

end Sys2Proof

namespace Sys2Proof.Machine

variable {w : Word}

theorem issueCommand_ok {i : Instr} (h : decode w = .ok i) (s : State) :
    issueCommand w s = exec i s := by
  simp [issueCommand, h]

theorem issueCommand_error {e : DecodeReject} (h : decode w = .error e) (s : State) :
    issueCommand w s = .next s.illegalCommand := by
  simp [issueCommand, h]

/-- A group of four data registers that hold the limbs of `x`, from register `base` on, gives its value
(30_encoding.md R75). -/
theorem State.val_eq_sum_cells (s : State) (x : Uint256) (base : Nat)
    (hcell : ∀ {k}, k < 4 → s.cell (base + k) = x.limb k) :
    x.val = (s.cell (base + 3)).toNat * 2 ^ 192 + (s.cell (base + 2)).toNat * 2 ^ 128 +
      (s.cell (base + 1)).toNat * 2 ^ 64 + (s.cell (base + 0)).toNat := by
  rw [hcell (k := 3) (by decide), hcell (k := 2) (by decide), hcell (k := 1) (by decide),
    hcell (k := 0) (by decide)]
  simp only [Uint256.val, Uint256.limb]
  ring

end Sys2Proof.Machine
end

section
namespace Sys2Proof.Machine

/-- Settles O1: the fields decide the decode, the decode decides what the command does, and the word of DIVMOD
is 1. -/
theorem commandDecodedByOpcodeAndReserved : Obligations.CommandDecodedByOpcodeAndReserved := by
  unfold Obligations.CommandDecodedByOpcodeAndReserved
  refine fun w s => ⟨fun hfields => ?divmod, fun hfields => ?illegal, divmodFields_iff⟩
  case divmod => exact issueCommand_ok (decode_divmod hfields) s
  case illegal =>
    obtain ⟨e, he⟩ := decode_illegal hfields
    exact issueCommand_error he s

/-- Settles O23: registers 0 .. 3 hold the limbs of A, and 4 .. 7 those of B. -/
theorem operandsAssembledFromTheirRegisters : Obligations.OperandsAssembledFromTheirRegisters := by
  unfold Obligations.OperandsAssembledFromTheirRegisters
  exact fun s => ⟨s.val_eq_sum_cells s.a 0 s.cell_a, s.val_eq_sum_cells s.b 4 s.cell_b⟩

end Sys2Proof.Machine
end

section
/-! Limb arrays as numbers (00_scope.md R8): a slice is the sum of its limbs, splits into a low and a high part,
and does not count zero limbs. -/

namespace Sys2Proof

/-- The weight of the next limb. -/
theorem limb_pow_succ (k : Nat) : 2 ^ (64 * (k + 1)) = 2 ^ 64 * 2 ^ (64 * k) := by
  rw [Nat.mul_succ, Nat.pow_add, Nat.mul_comm]

/-- A limb parted at bit `64 - s`. -/
theorem limb_pow_split {s : Nat} (hs : s ≤ 63) : 2 ^ 64 = 2 ^ (64 - s) * 2 ^ s := by
  rw [← Nat.pow_add, Nat.sub_add_cancel (by omega)]

theorem valSlice_append (x : Nat → Word) (lo a b : Nat) :
    valSlice x lo (a + b) = valSlice x lo a + 2 ^ (64 * a) * valSlice x (lo + a) b := by
  induction b with
  | zero => simp
  | succ b ih =>
    rw [← Nat.add_assoc, valSlice_succ, ih, valSlice_succ, Nat.mul_add 64, Nat.pow_add,
      Nat.add_assoc lo]
    ring

theorem valSlice_eq_zero {x : Nat → Word} {lo count : Nat} (h : ∀ k, k < count → x (lo + k) = 0) :
    valSlice x lo count = 0 := by
  induction count with
  | zero => rfl
  | succ c ih => rw [valSlice_succ, ih fun k hk => h k (by omega), h c (by omega)]; simp

theorem valSlice_eq_sum (x : Nat → Word) (lo count : Nat) :
    valSlice x lo count = (Finset.range count).sum fun k => (x (lo + k)).toNat * 2 ^ (64 * k) := by
  induction count with
  | zero => rfl
  | succ c ih => rw [valSlice_succ, ih, Finset.sum_range_succ]

/-- Zero limbs above the lowest `c` do not count in the value of a slice. -/
theorem valSlice_of_high_zero {x : Nat → Word} {lo c count : Nat} (hc : c ≤ count)
    (h : ∀ i, c ≤ i → x (lo + i) = 0) : valSlice x lo count = valSlice x lo c := by
  have hhigh : valSlice x (lo + c) (count - c) = 0 :=
    valSlice_eq_zero fun k _ => by rw [Nat.add_assoc]; exact h _ (by omega)
  rw [← Nat.add_sub_cancel' hc, valSlice_append, hhigh, Nat.mul_zero, Nat.add_zero]

/-- A slice is at least its top limb at its weight. -/
theorem valSlice_succ_ge (x : Nat → Word) (lo c : Nat) :
    (x (lo + c)).toNat * 2 ^ (64 * c) ≤ valSlice x lo (c + 1) := by
  rw [valSlice_succ]
  omega

/-- There is no limb above 3. -/
theorem Uint256.limb_of_ge (x : Uint256) {i : Nat} (h : 4 ≤ i) : x.limb i = 0 := by
  obtain ⟨k, rfl⟩ := Nat.exists_eq_add_of_le' h
  rfl

/-- Limb `k` of a number held as a 256-bit value (30_encoding.md R76). -/
theorem Uint256.limb_ofNat (x : Nat) {k : Nat} (hk : k < 4) :
    (Uint256.ofNat x).limb k = BitVec.ofNat 64 (x / 2 ^ (64 * k)) := by
  interval_cases k <;> rfl

end Sys2Proof
end

section
/-! The normalizer's numbers (41_normalizer.md R130 to R136): limb counts, leading zeros, and a shift of a limb
array as a product by a power of two. -/

namespace Sys2Proof.Machine

/-! ### Limb counts -/

/-- The cases of the effective limb count, from the most significant limb down. -/
theorem nlimbs_cases {x : Uint256} (h : x.val ≠ 0) :
    (nlimbs x = 4 ∧ x.w3 ≠ 0) ∨ (nlimbs x = 3 ∧ x.w3 = 0 ∧ x.w2 ≠ 0) ∨
    (nlimbs x = 2 ∧ x.w3 = 0 ∧ x.w2 = 0 ∧ x.w1 ≠ 0) ∨
    (nlimbs x = 1 ∧ x.w3 = 0 ∧ x.w2 = 0 ∧ x.w1 = 0 ∧ x.w0 ≠ 0) := by
  unfold nlimbs
  split
  · next h3 => exact .inl ⟨rfl, h3⟩
  next h3 =>
  split
  · next h2 => exact .inr (.inl ⟨rfl, not_not.mp h3, h2⟩)
  next h2 =>
  split
  · next h1 => exact .inr (.inr (.inl ⟨rfl, not_not.mp h3, not_not.mp h2, h1⟩))
  next h1 =>
  have h0 : x.w0 ≠ 0 := fun h0 => h (by simp_all [Uint256.val])
  rw [if_pos h0]
  exact .inr (.inr (.inr ⟨rfl, not_not.mp h3, not_not.mp h2, not_not.mp h1, h0⟩))

theorem one_le_nlimbs {x : Uint256} (h : x.val ≠ 0) : 1 ≤ nlimbs x := by
  rcases nlimbs_cases h with ⟨hn, _⟩ | ⟨hn, _⟩ | ⟨hn, _⟩ | ⟨hn, _⟩ <;> omega

theorem topLimb_ne_zero {x : Uint256} (h : x.val ≠ 0) : x.limb (nlimbs x - 1) ≠ 0 := by
  rcases nlimbs_cases h with ⟨hn, h3⟩ | ⟨hn, _, h2⟩ | ⟨hn, _, _, h1⟩ | ⟨hn, _, _, _, h0⟩ <;>
    rw [hn] <;> assumption

theorem limb_eq_zero_of_nlimbs_le {x : Uint256} (h : x.val ≠ 0) {i : Nat} (hi : nlimbs x ≤ i) :
    x.limb i = 0 := by
  by_cases h4 : i < 4
  · rcases nlimbs_cases h with ⟨hn, _⟩ | ⟨hn, h3, _⟩ | ⟨hn, h3, h2, _⟩ | ⟨hn, h3, h2, h1, _⟩ <;>
      rw [hn] at hi <;> interval_cases i <;> assumption
  · exact x.limb_of_ge (Nat.le_of_not_lt h4)

/-- The value of a nonzero operand is that of its effective limbs. -/
theorem val_eq_valSlice_nlimbs {x : Uint256} (h : x.val ≠ 0) :
    x.val = valSlice x.limb 0 (nlimbs x) := by
  rw [Uint256.val_eq_valSlice]
  exact valSlice_of_high_zero (nlimbs_le x) fun i hi => by
    rw [Nat.zero_add]
    exact limb_eq_zero_of_nlimbs_le h hi

theorem nlimbs_mono {x y : Uint256} (hx : x.val ≠ 0) (h : x.val ≤ y.val) : nlimbs x ≤ nlimbs y := by
  by_contra hlt
  have hy : y.val ≠ 0 := by omega
  have htop : 1 ≤ (x.limb (nlimbs x - 1)).toNat :=
    Nat.one_le_iff_ne_zero.mpr fun h0 => topLimb_ne_zero hx (BitVec.eq_of_toNat_eq h0)
  have hge := valSlice_succ_ge x.limb 0 (nlimbs x - 1)
  rw [Nat.sub_add_cancel (one_le_nlimbs hx), ← val_eq_valSlice_nlimbs hx, Nat.zero_add] at hge
  have hylt := valSlice_lt y.limb 0 (nlimbs y)
  rw [← val_eq_valSlice_nlimbs hy] at hylt
  have hpow : 2 ^ (64 * nlimbs y) ≤ 2 ^ (64 * (nlimbs x - 1)) :=
    Nat.pow_le_pow_right (by decide) (by omega)
  have := Nat.mul_le_mul_right (2 ^ (64 * (nlimbs x - 1))) htop
  omega

/-! ### Leading zeros -/

theorem getLsbD_of_clzBelow (x : Word) {k i : Nat} (hlow : k - clzBelow x k ≤ i)
    (hi : i < k) : x.getLsbD i = false := by
  induction k with
  | zero => omega
  | succ k ih =>
    unfold clzBelow at hlow
    split at hlow
    · omega
    · next hbit =>
      rcases Nat.lt_succ_iff_lt_or_eq.mp hi with hlt | rfl
      · exact ih (by omega) hlt
      · simpa using hbit

theorem clzBelow_top (x : Word) {k : Nat} (h : clzBelow x k < k) :
    x.getLsbD (k - 1 - clzBelow x k) = true := by
  induction k with
  | zero => omega
  | succ k ih =>
    unfold clzBelow at h ⊢
    split at h
    · next hbit => simp [hbit]
    · next hbit =>
      rw [if_neg hbit]
      have := ih (by omega)
      rwa [show k + 1 - 1 - (clzBelow x k + 1) = k - 1 - clzBelow x k by omega]

theorem clz64_le {x : Word} (hx : x ≠ 0) : clz64 x ≤ 63 := by
  by_contra hlt
  have h64 : clzBelow x 64 = 64 := Nat.le_antisymm (clzBelow_le x 64) (by unfold clz64 at hlt; omega)
  exact hx (BitVec.eq_of_getLsbD_eq fun i hi => by
    simpa using getLsbD_of_clzBelow x (k := 64) (by omega) hi)

/-- A limb shifted left by its leading zeros keeps all its bits and has its top bit set. -/
theorem mul_two_pow_clz64 {x : Word} (hx : x ≠ 0) :
    2 ^ 63 ≤ x.toNat * 2 ^ clz64 x ∧ x.toNat * 2 ^ clz64 x < 2 ^ 64 := by
  have hle : clzBelow x 64 ≤ 63 := clz64_le hx
  have hpow : 2 ^ (63 - clz64 x) * 2 ^ clz64 x = 2 ^ 63 := by
    rw [← Nat.pow_add, Nat.sub_add_cancel (clz64_le hx)]
  have htop : 2 ^ (63 - clz64 x) ≤ x.toNat := Nat.ge_two_pow_of_testBit (clzBelow_top x (k := 64) (by omega))
  have hhigh : x.toNat < 2 ^ (64 - clz64 x) := by
    refine Nat.lt_pow_two_of_testBit _ fun i hi => ?_
    by_cases h64 : i < 64
    · exact getLsbD_of_clzBelow x hi h64
    · exact BitVec.getLsbD_of_ge x i (by omega)
  have hlow := Nat.mul_le_mul_right (2 ^ clz64 x) htop
  have hup := Nat.mul_lt_mul_of_pos_right hhigh (Nat.two_pow_pos (clz64 x))
  rw [hpow] at hlow
  rw [← limb_pow_split (clz64_le hx)] at hup
  exact ⟨hlow, hup⟩

/-! ### A limb array shifted left -/

/-- The bits that limb `i` of a shifted array takes from the limb below it. -/
def shiftCarry (x : Nat → Word) (s : Nat) : Nat → Nat
  | 0 => 0
  | i + 1 => (x i).toNat / 2 ^ (64 - s)

/-- A 64-bit limb shifted left by `s`: the bits that stay and the bits handed on. -/
theorem shiftLeft_split (w : Word) {s : Nat} (hs : s ≤ 63) :
    w.toNat * 2 ^ s = w.toNat * 2 ^ s % 2 ^ 64 + 2 ^ 64 * (w.toNat / 2 ^ (64 - s)) := by
  have hdiv : w.toNat / 2 ^ (64 - s) = w.toNat * 2 ^ s / 2 ^ 64 := by
    rw [limb_pow_split hs, Nat.mul_div_mul_right _ _ (Nat.two_pow_pos s)]
  rw [hdiv, Nat.mod_add_div]

/-- The bits that stay and the bits that come from below do not overlap, so their union is their sum. -/
theorem shifted_or_eq_add (x : Nat) {y s : Nat} (hs : s ≤ 63) (hy : y < 2 ^ s) :
    x * 2 ^ s % 2 ^ 64 ||| y = x * 2 ^ s % 2 ^ 64 + y := by
  rw [Nat.mul_comm x, limb_pow_split hs, Nat.mul_comm (2 ^ (64 - s)), Nat.mul_mod_mul_left, Nat.two_pow_add_eq_or_of_lt hy]

theorem shiftCarry_lt (x : Nat → Word) {s : Nat} (hs : s ≤ 63) (i : Nat) : shiftCarry x s i < 2 ^ s := by
  cases i with
  | zero => exact Nat.two_pow_pos s
  | succ i =>
    rw [shiftCarry, Nat.div_lt_iff_lt_mul (Nat.two_pow_pos _), ← Nat.pow_add, Nat.add_sub_cancel' (by omega)]
    exact (x i).isLt

theorem shiftLimb_toNat (x : Nat → Word) (count i : Nat) {s : Nat} (hs : s ≤ 63) :
    (shiftLimb x count s i).toNat =
      (if i < count then x i else 0).toNat * 2 ^ s % 2 ^ 64 + shiftCarry x s i := by
  have hcarry : (if 0 < s ∧ 0 < i then x (i - 1) >>> (64 - s) else 0).toNat = shiftCarry x s i := by
    cases i with
    | zero => simp [shiftCarry]
    | succ i =>
      rcases Nat.eq_zero_or_pos s with rfl | hpos
      · simpa [shiftCarry] using (Nat.div_eq_of_lt (x i).isLt).symm
      · simp [shiftCarry, hpos, Nat.shiftRight_eq_div_pow]
  rw [shiftLimb, BitVec.toNat_or, hcarry, toNat_shiftLeft_eq, shifted_or_eq_add _ hs (shiftCarry_lt x hs i)]

/-- The first `k` shifted limbs and the bits they hand on are the first `k` limbs times `2^s`. -/
theorem valSlice_shiftLimb (x : Nat → Word) {count s k : Nat} (hs : s ≤ 63) (hk : k ≤ count) :
    valSlice (shiftLimb x count s) 0 k + shiftCarry x s k * 2 ^ (64 * k) = valSlice x 0 k * 2 ^ s := by
  induction k with
  | zero => simp [shiftCarry]
  | succ k ih =>
    have hsplit := shiftLeft_split (x k) hs
    rw [valSlice_succ, valSlice_succ, Nat.zero_add, shiftLimb_toNat x count k hs, if_pos (by omega), shiftCarry,
      limb_pow_succ]
    linear_combination ih (by omega) + 2 ^ (64 * k) * hsplit.symm

end Sys2Proof.Machine
end

section
/-! The normalized operands (41_normalizer.md R133 to R136) and the shift back (R138). -/

namespace Sys2Proof.Machine

/-! ### The limbs the normalizer writes -/

theorem writeNormDivisor_limb (V : Uint256) (n s : Nat) (v : Uint256) {k : Nat} (hk : k ≤ 4) (i : Nat) :
    (writeNormDivisor V n s v k).limb i = if i < k then shiftLimb V.limb n s i else v.limb i := by
  induction k with
  | zero => rfl
  | succ k ih =>
    rw [writeNormDivisor, Uint256.limb_setLimb, ih (by omega)]
    by_cases hik : i = k
    · subst hik
      simp [show i < 4 by omega]
    · simp [hik, show i < k + 1 ↔ i < k by omega]

theorem writeNormDividend_limb (D : Uint256) (m s : Nat) (u : Uint320) {k : Nat} (hk : k ≤ 5) (i : Nat) :
    (writeNormDividend D m s u k).limb i = if i < k then shiftLimb D.limb m s i else u.limb i := by
  induction k with
  | zero => rfl
  | succ k ih =>
    rw [writeNormDividend, Uint320.limb_setLimb, ih (by omega)]
    by_cases hik : i = k
    · subst hik
      simp [show i < 5 by omega]
    · simp [hik, show i < k + 1 ↔ i < k by omega]

theorem normalize_v_limb (D V : Uint256) (dp : Datapath) (i : Nat) :
    (normalize D V dp).v.limb i =
      if i < nlimbs V then shiftLimb V.limb (nlimbs V) (normShift V) i else dp.v.limb i :=
  writeNormDivisor_limb V _ _ _ (nlimbs_le V) i

theorem normalize_u_limb (D V : Uint256) (dp : Datapath) (i : Nat) :
    (normalize D V dp).u.limb i =
      if i < nlimbs D + 1 then shiftLimb D.limb (nlimbs D) (normShift V) i else dp.u.limb i :=
  writeNormDividend_limb D _ _ _ (Nat.succ_le_succ (nlimbs_le D)) i

/-! ### Their values -/

theorem normShift_le {V : Uint256} (hV : V.val ≠ 0) : normShift V ≤ 63 := clz64_le (topLimb_ne_zero hV)

theorem normalize_s {V : Uint256} (hV : V.val ≠ 0) (D : Uint256) (dp : Datapath) :
    (normalize D V dp).s.toNat = normShift V := by
  have := normShift_le hV
  rw [normalize, BitVec.toNat_ofNat, Nat.mod_eq_of_lt (by omega)]

/-- No bit of the divisor is shifted out of its effective limbs. -/
theorem shiftCarry_divisor {V : Uint256} (hV : V.val ≠ 0) :
    shiftCarry V.limb (normShift V) (nlimbs V) = 0 := by
  obtain ⟨n, hn⟩ := Nat.exists_eq_add_of_le' (one_le_nlimbs hV)
  have hlt := (mul_two_pow_clz64 (topLimb_ne_zero hV)).2
  have hs := normShift_le hV
  rw [normShift, hn, Nat.add_sub_cancel] at *
  rw [shiftCarry, Nat.div_eq_zero_iff_lt (Nat.two_pow_pos _)]
  refine lt_of_mul_lt_mul_right ?_ (Nat.zero_le (2 ^ clz64 (V.limb n)))
  rwa [← Nat.pow_add, Nat.sub_add_cancel (by omega)]

theorem divisorValue_normalize {V : Uint256} (hV : V.val ≠ 0) (D : Uint256) (dp : Datapath) :
    divisorValue (normalize D V dp).v (nlimbs V) = V.val * 2 ^ normShift V := by
  have hlimbs : divisorValue (normalize D V dp).v (nlimbs V) =
      valSlice (shiftLimb V.limb (nlimbs V) (normShift V)) 0 (nlimbs V) :=
    valSlice_congr fun k hk => by rw [normalize_v_limb, if_pos (by omega)]
  have hshift := valSlice_shiftLimb V.limb (normShift_le hV) (Nat.le_refl (nlimbs V))
  rwa [shiftCarry_divisor hV, Nat.zero_mul, Nat.add_zero, ← hlimbs, ← val_eq_valSlice_nlimbs hV] at hshift

theorem normalize_topLimb {V : Uint256} (hV : V.val ≠ 0) (D : Uint256) (dp : Datapath) :
    2 ^ 63 ≤ ((normalize D V dp).v.limb (nlimbs V - 1)).toNat := by
  have hn := one_le_nlimbs hV
  obtain ⟨hge, hlt⟩ := mul_two_pow_clz64 (topLimb_ne_zero hV)
  rw [normalize_v_limb, if_pos (by omega), shiftLimb_toNat _ _ _ (normShift_le hV), if_pos (by omega), normShift,
    Nat.mod_eq_of_lt hlt]
  omega

theorem valSlice_normalize_u {D V : Uint256} (hD : D.val ≠ 0) (hV : V.val ≠ 0) (dp : Datapath) :
    valSlice (normalize D V dp).u.limb 0 (nlimbs D + 1) = D.val * 2 ^ normShift V := by
  have hlimbs : valSlice (normalize D V dp).u.limb 0 (nlimbs D + 1) =
      valSlice (shiftLimb D.limb (nlimbs D) (normShift V)) 0 (nlimbs D + 1) :=
    valSlice_congr fun k hk => by rw [normalize_u_limb, if_pos (by omega)]
  have hshift := valSlice_shiftLimb D.limb (normShift_le hV) (Nat.le_refl (nlimbs D))
  rw [hlimbs, valSlice_succ, shiftLimb_toNat _ _ _ (normShift_le hV), if_neg (by omega), Nat.zero_add]
  rw [← val_eq_valSlice_nlimbs hD] at hshift
  simpa using hshift

/-! ### The shift back -/

/-- A slice shifted right: its lowest limb takes the bits that the slice above hands down. -/
theorem shiftRight_cons {w t s : Nat} (hs : s ≤ 63) :
    (w + 2 ^ 64 * t) / 2 ^ s = w / 2 ^ s + t * 2 ^ (64 - s) % 2 ^ 64 + 2 ^ 64 * (t / 2 ^ s) := by
  have hdiv : t / 2 ^ s = t * 2 ^ (64 - s) / 2 ^ 64 := by
    rw [limb_pow_split hs, Nat.mul_comm t, Nat.mul_div_mul_left _ _ (Nat.two_pow_pos (64 - s))]
  rw [hdiv, Nat.add_assoc, Nat.mod_add_div, limb_pow_split hs, Nat.mul_assoc, Nat.mul_left_comm,
    Nat.add_mul_div_left _ _ (Nat.two_pow_pos s), Nat.mul_comm t]

/-- A de-normalized limb is its own high bits and, above them, the low bits of the next limb. -/
theorem denormLimb_toNat (u : Nat → Word) {n s i : Nat} (hs : s ≤ 63) (hi : i < n) :
    (denormLimb u n s i).toNat = (u i).toNat / 2 ^ s +
      (if i + 1 < n then (u (i + 1)).toNat else 0) * 2 ^ (64 - s) % 2 ^ 64 := by
  rw [denormLimb, if_pos hi, BitVec.toNat_or, toNat_shiftRight_eq]
  rcases Nat.eq_zero_or_pos s with rfl | hpos
  · rw [Nat.sub_zero, Nat.mul_mod_left]
    simp
  · have hlow : (u i).toNat / 2 ^ s < 2 ^ (64 - s) := by
      rw [Nat.div_lt_iff_lt_mul (Nat.two_pow_pos s), ← limb_pow_split hs]
      exact (u i).isLt
    have hhigh : (if 0 < s ∧ i + 1 < n then u (i + 1) <<< (64 - s) else 0).toNat =
        (if i + 1 < n then (u (i + 1)).toNat else 0) * 2 ^ (64 - s) % 2 ^ 64 := by
      by_cases hn : i + 1 < n
      · rw [if_pos ⟨hpos, hn⟩, if_pos hn, toNat_shiftLeft_eq]
      · rw [if_neg fun h => hn h.2, if_neg hn, Nat.zero_mul]; rfl
    rw [hhigh, Nat.or_comm, shifted_or_eq_add _ (by omega) hlow, Nat.add_comm]

/-- De-normalized limbs from `i` up are the slice of `u` from `i` up, shifted right. -/
theorem valSlice_denormLimb (u : Nat → Word) {n s i c : Nat} (hs : s ≤ 63) (hn : i + c = n) :
    valSlice (denormLimb u n s) i c = valSlice u i c / 2 ^ s := by
  induction c generalizing i with
  | zero => simp
  | succ c ih =>
    have habove : valSlice u (i + 1) c * 2 ^ (64 - s) % 2 ^ 64 =
        (if i + 1 < n then (u (i + 1)).toNat else 0) * 2 ^ (64 - s) % 2 ^ 64 := by
      cases c with
      | zero => simp [show ¬ i + 1 < n by omega]
      | succ c =>
        rw [valSlice_cons, if_pos (by omega), Nat.add_mul, Nat.mul_assoc, Nat.add_mul_mod_self_left]
    rw [valSlice_cons, valSlice_cons, ih (by omega), shiftRight_cons hs, denormLimb_toNat u hs (by omega), habove]

theorem denormalize_limb (u : Uint320) (n s : Nat) {i : Nat} (hi : i < 4) :
    (denormalize u n s).limb i = denormLimb u.limb n s i := by
  interval_cases i <;> rfl

theorem denormalize_limb_of_ge (u : Uint320) {n i : Nat} (s : Nat) (hi : n ≤ i) :
    (denormalize u n s).limb i = 0 := by
  by_cases h4 : i < 4
  · rw [denormalize_limb u n s h4, denormLimb, if_neg (by omega)]
  · exact Uint256.limb_of_ge _ (Nat.le_of_not_lt h4)

theorem denormalize_val (u : Uint320) {n s : Nat} (hn : n ≤ 4) (hs : s ≤ 63) :
    (denormalize u n s).val = valSlice u.limb 0 n / 2 ^ s := by
  have hlow : valSlice (denormalize u n s).limb 0 n = valSlice (denormLimb u.limb n s) 0 n :=
    valSlice_congr fun k hk => denormalize_limb u n s (by omega)
  rw [Uint256.val_eq_valSlice, valSlice_of_high_zero hn fun i hi => denormalize_limb_of_ge u s (by omega), hlow,
    valSlice_denormLimb u.limb hs (Nat.zero_add n)]

/-! ### The digit loop's condition at its first step -/

/-- The bound on the dividend behind the first digit: `n - 1` limbs and 63 bits above the lowest `m - n + 1`. -/
theorem scaledDividend_lt {D V : Uint256} (hV : V.val ≠ 0) (hle : V.val ≤ D.val) :
    D.val * 2 ^ normShift V <
      2 ^ (64 * (nlimbs D - nlimbs V + 1)) * (2 ^ 63 * 2 ^ (64 * (nlimbs V - 1))) := by
  have hlt := valSlice_lt D.limb 0 (nlimbs D)
  rw [← val_eq_valSlice_nlimbs (by omega)] at hlt
  have hexp : 64 * nlimbs D = 64 * (nlimbs D - nlimbs V + 1) + 64 * (nlimbs V - 1) := by
    have := one_le_nlimbs hV
    have := nlimbs_mono hV hle
    omega
  rw [Nat.mul_comm (2 ^ 63), ← Nat.mul_assoc, ← Nat.pow_add, ← hexp]
  exact Nat.mul_lt_mul_of_lt_of_le hlt (Nat.pow_le_pow_right (by decide) (normShift_le hV)) (Nat.two_pow_pos _)

/-- The normalized operands meet the condition of the first digit step (43_correction_refiner.md R171). -/
theorem digitReady_normalize {D V : Uint256} (hV : V.val ≠ 0) (hle : V.val ≤ D.val) (dp : Datapath) :
    DigitReady (normalize D V dp).u (normalize D V dp).v (nlimbs V) (nlimbs D - nlimbs V) := by
  have hn := one_le_nlimbs hV
  have hnm := nlimbs_mono hV hle
  have hm := nlimbs_le D
  have htop := normalize_topLimb hV D dp
  refine ⟨hn, by omega, htop, ?_⟩
  have hu := valSlice_normalize_u (D := D) (by omega) hV dp
  rw [show nlimbs D + 1 = (nlimbs D - nlimbs V + 1) + nlimbs V by omega, valSlice_append, Nat.zero_add] at hu
  have hv := valSlice_succ_ge (normalize D V dp).v.limb 0 (nlimbs V - 1)
  rw [Nat.zero_add, Nat.sub_add_cancel hn] at hv
  calc valSlice (normalize D V dp).u.limb (nlimbs D - nlimbs V + 1) (nlimbs V)
      < 2 ^ 63 * 2 ^ (64 * (nlimbs V - 1)) :=
        Nat.lt_of_mul_lt_mul_left (lt_of_le_of_lt (by omega) (scaledDividend_lt hV hle))
    _ ≤ ((normalize D V dp).v.limb (nlimbs V - 1)).toNat * 2 ^ (64 * (nlimbs V - 1)) :=
        Nat.mul_le_mul_right _ htop
    _ ≤ divisorValue (normalize D V dp).v (nlimbs V) := hv

end Sys2Proof.Machine
end

section
/-! The trial digit lies between the true digit and two above it (42_trial_quotient.md R151 to R155). -/

namespace Sys2Proof.Machine

/-! ### A quotient and the top parts of its operands

`B` weighs the low part of the dividend `W` and of the divisor `V`; `t` and `d` are the parts above it. -/

section TopParts

variable {W V B t d q : Nat}

/-- 42_trial_quotient.md R153: the top part of the dividend allows the true digit. -/
theorem quotient_mul_top_le (hW : W < (t + 1) * B) (hV : d * B ≤ V) : W / V * d ≤ t := by
  have hdiv : W / V * (d * B) ≤ W := (Nat.mul_le_mul_left _ hV).trans (Nat.div_mul_le_self W V)
  rw [← Nat.mul_assoc] at hdiv
  exact Nat.le_of_lt_succ (lt_of_mul_lt_mul_right (lt_of_le_of_lt hdiv hW) (Nat.zero_le B))

/-- 42_trial_quotient.md R154: where the top limb of the divisor has its top bit set, a digit that the top
part of the dividend allows is at most two above the true one. -/
theorem le_quotient_add_two (hW : t * B ≤ W) (hV : V < (d + 1) * B) (hd : 2 ^ 63 ≤ d) (hpos : 0 < V)
    (hq : q < 2 ^ 64) (hqd : q * d ≤ t) : q ≤ W / V + 2 := by
  by_contra hlt
  have hWV : W < (W / V + 1) * V := (Nat.div_lt_iff_lt_mul hpos).mp (Nat.lt_succ_self _)
  have hB : (W / V + 1) * V ≤ (W / V + 1) * (d + 1) * B := by
    rw [Nat.mul_assoc]
    exact Nat.mul_le_mul_left _ hV.le
  have ht : t < (W / V + 1) * (d + 1) :=
    lt_of_mul_lt_mul_right (by omega : t * B < (W / V + 1) * (d + 1) * B) (Nat.zero_le B)
  have hq3 : (W / V + 3) * d ≤ q * d := Nat.mul_le_mul_right d (by omega)
  have : (W / V + 3) * d < (W / V + 1) * (d + 1) := by omega
  linarith

/-- 42_trial_quotient.md R155: a digit whose product with the top part of the divisor exceeds the top part of
the dividend is above the true one. -/
theorem quotient_lt_of_top_lt (hW : W < (t + 1) * B) (hV : d * B ≤ V) (h : t < q * d) : W / V < q :=
  lt_of_mul_lt_mul_right (lt_of_le_of_lt (quotient_mul_top_le hW hV) h) (Nat.zero_le d)

end TopParts

/-! ### The top parts of the working value and of the divisor -/

/-- The top two limbs of the working value, one limb above the rest of the divisor's. -/
theorem workingValue_top (u : Uint320) (c j : Nat) :
    topTwo u (c + 1) j * 2 ^ (64 * c) ≤ workingValue u (c + 1) j ∧
      workingValue u (c + 1) j < (topTwo u (c + 1) j + 1) * 2 ^ (64 * c) := by
  have hlow := valSlice_lt u.limb j c
  have hval : workingValue u (c + 1) j = valSlice u.limb j c + topTwo u (c + 1) j * 2 ^ (64 * c) := by
    rw [workingValue, valSlice_succ, valSlice_succ, topTwo, Nat.mul_succ 64 c, Nat.pow_add,
      show j + (c + 1) - 1 = j + c by omega]
    ring
  rw [Nat.add_mul]
  omega

theorem divisorValue_top (v : Uint256) (c : Nat) :
    (v.limb c).toNat * 2 ^ (64 * c) ≤ divisorValue v (c + 1) ∧
      divisorValue v (c + 1) < ((v.limb c).toNat + 1) * 2 ^ (64 * c) := by
  have hlow := valSlice_lt v.limb 0 c
  rw [divisorValue, valSlice_succ, Nat.zero_add, Nat.add_mul]
  omega

/-- The top three limbs of the working value, where the divisor has two limbs or more. -/
theorem workingValue_topThree (u : Uint320) (c j : Nat) :
    workingValue u (c + 2) j <
      (topTwo u (c + 2) j * 2 ^ 64 + (u.limb (j + c)).toNat + 1) * 2 ^ (64 * c) := by
  have hlow := valSlice_lt u.limb j c
  have hval : workingValue u (c + 2) j = valSlice u.limb j c +
      (topTwo u (c + 2) j * 2 ^ 64 + (u.limb (j + c)).toNat) * 2 ^ (64 * c) := by
    rw [workingValue, valSlice_succ, valSlice_succ, valSlice_succ, topTwo, Nat.mul_add 64 c 2,
      Nat.mul_succ 64 c, Nat.pow_add, Nat.pow_add, show j + (c + 2) - 1 = j + (c + 1) by omega]
    ring
  rw [Nat.add_mul _ 1]
  omega

theorem divisorValue_topTwo (v : Uint256) (c : Nat) :
    ((v.limb (c + 1)).toNat * 2 ^ 64 + (v.limb c).toNat) * 2 ^ (64 * c) ≤ divisorValue v (c + 2) := by
  rw [divisorValue, valSlice_succ, valSlice_succ, Nat.zero_add, Nat.zero_add, Nat.mul_succ 64 c, Nat.pow_add]
  linarith [Nat.zero_le (valSlice v.limb 0 c)]

/-! ### What `DigitReady` gives a step -/

section Ready

variable {u : Uint320} {v : Uint256} {n j : Nat} (h : DigitReady u v n j)
include h

theorem DigitReady.topIndex_lt : j + n < 5 := by
  obtain ⟨_, hjn, _⟩ := h
  omega

theorem DigitReady.digitIndex_lt : j < 4 := by
  obtain ⟨hn, hjn, _⟩ := h
  omega

theorem DigitReady.divisorValue_pos : 0 < divisorValue v n := by
  obtain ⟨_, _, _, hlt⟩ := h
  exact Nat.zero_lt_of_lt hlt

theorem DigitReady.quotient_lt : workingValue u n j / divisorValue v n < 2 ^ 64 := by
  obtain ⟨_, _, _, hlt⟩ := h
  have hlimb := (u.limb j).isLt
  rw [Nat.div_lt_iff_lt_mul (Nat.zero_lt_of_lt hlt), workingValue, valSlice_cons]
  omega

/-- 42_trial_quotient.md R153 and R154: the classic estimate. -/
theorem DigitReady.estimate_bounds :
    workingValue u n j / divisorValue v n ≤ estimate u v n j ∧
      estimate u v n j ≤ workingValue u n j / divisorValue v n + 2 := by
  have hq := h.quotient_lt
  have hpos := h.divisorValue_pos
  obtain ⟨hn, _, htop, _⟩ := h
  obtain ⟨c, rfl⟩ := Nat.exists_eq_add_of_le' hn
  rw [Nat.add_sub_cancel] at htop
  obtain ⟨hWge, hWlt⟩ := workingValue_top u c j
  obtain ⟨hVge, hVlt⟩ := divisorValue_top v c
  have hraw : estimateRaw u v (c + 1) j * (v.limb c).toNat ≤ topTwo u (c + 1) j := Nat.div_mul_le_self _ _
  refine ⟨le_min ?_ (by omega), le_quotient_add_two hWge hVlt htop hpos ?_ ?_⟩
  · exact (Nat.le_div_iff_mul_le (by rw [Nat.add_sub_cancel]; omega)).mpr (quotient_mul_top_le hWlt hVge)
  · exact Nat.lt_of_le_of_lt (min_le_right _ _) (by decide)
  · exact (Nat.mul_le_mul_right _ (min_le_left _ _)).trans hraw

end Ready

/-! ### The two-limb pretest -/

/-- While its two numbers add up to the top two limbs `t`, the pretest never takes a digit below the true one
and never raises it (42_trial_quotient.md R155). `V` and `W` have the top two limbs `d` and `e`, and `t` and
`w`, above a low part weighed by `B`. -/
theorem pretestLoop_bounds {W V B t d e w : Nat} (hW : W < (t * 2 ^ 64 + w + 1) * B)
    (hV : (d * 2 ^ 64 + e) * B ≤ V) (fuel : Nat) {qr : Nat × Nat} (hsum : qr.1 * d + qr.2 = t)
    (hq : W / V ≤ qr.1) :
    W / V ≤ (pretestLoop d e w fuel qr).1 ∧ (pretestLoop d e w fuel qr).1 ≤ qr.1 := by
  induction fuel generalizing qr with
  | zero => exact ⟨hq, Nat.le_refl _⟩
  | succ fuel ih =>
    unfold pretestLoop
    split
    · next hcond =>
      obtain ⟨_, hgt⟩ := hcond
      have hexceeds : t * 2 ^ 64 + w < qr.1 * (d * 2 ^ 64 + e) := by
        rw [← hsum]
        linarith
      have hlt := quotient_lt_of_top_lt hW hV hexceeds
      have hd : qr.1 * d = (qr.1 - 1) * d + d := by
        rw [← Nat.succ_mul, Nat.succ_eq_add_one, Nat.sub_add_cancel (Nat.zero_lt_of_lt hlt)]
      obtain ⟨hge, hle⟩ := ih (qr := (qr.1 - 1, qr.2 + d)) (by simp only; omega) (Nat.le_sub_one_of_lt hlt)
      exact ⟨hge, hle.trans (Nat.sub_le _ _)⟩
    · exact ⟨hq, Nat.le_refl _⟩

theorem DigitReady.pretested_bounds {u : Uint320} {v : Uint256} {n j : Nat} (h : DigitReady u v n j)
    (h2 : 2 ≤ n) :
    workingValue u n j / divisorValue v n ≤ (pretested u v n j).1 ∧
      (pretested u v n j).1 ≤ estimate u v n j := by
  obtain ⟨hge, _⟩ := h.estimate_bounds
  obtain ⟨c, rfl⟩ := Nat.exists_eq_add_of_le' h2
  have hsum : estimate u v (c + 2) j * (v.limb (c + 1)).toNat ≤ topTwo u (c + 2) j :=
    (Nat.mul_le_mul_right _ (min_le_left _ _)).trans (Nat.div_mul_le_self _ _)
  exact pretestLoop_bounds (workingValue_topThree u c j) (divisorValue_topTwo v c) 2
    (Nat.add_sub_cancel' hsum) hge

/-- The trial digit, with and without the pretest, and that its register holds it. -/
theorem DigitReady.trialDigit_bounds {u : Uint320} {v : Uint256} {n j : Nat} (h : DigitReady u v n j)
    (p : Pretest) :
    workingValue u n j / divisorValue v n ≤ trialDigit p u v n j ∧
      trialDigit p u v n j ≤ workingValue u n j / divisorValue v n + 2 ∧ trialDigit p u v n j < 2 ^ 64 := by
  obtain ⟨hge, hle⟩ := h.estimate_bounds
  have hlt : estimate u v n j < 2 ^ 64 := Nat.lt_of_le_of_lt (min_le_right _ _) (by decide)
  unfold trialDigit
  split
  · next hruns =>
    have h2 : 2 ≤ n := by simp_all [pretestRuns]
    obtain ⟨hge', hle'⟩ := h.pretested_bounds h2
    exact ⟨hge', hle'.trans hle, Nat.lt_of_le_of_lt hle' hlt⟩
  · exact ⟨hge, hle, hlt⟩

end Sys2Proof.Machine
end

section
/-! The refiner's product and comparison (43_correction_refiner.md R182) and its corrections (R172 to R174). -/

namespace Sys2Proof.Machine

open Finset

/-! ### The product by limbs -/

theorem productCarry_le (qhat : Word) (v : Uint256) (k : Nat) : productCarry qhat v k ≤ 2 ^ 64 - 2 := by
  induction k with
  | zero => exact Nat.zero_le _
  | succ k ih => exact (product_bound (by omega) (by omega) ih).2

theorem productLimb_lt (qhat : Word) (v : Uint256) (n k : Nat) : productLimb qhat v n k < 2 ^ 64 := by
  unfold productLimb
  split
  · exact lo64_lt _
  · exact Nat.lt_of_le_of_lt (productCarry_le qhat v n) (by decide)

/-- The low limbs of the product and the carry above them (43_correction_refiner.md R182). -/
theorem sum_lo64_add_productCarry (qhat : Word) (v : Uint256) (n : Nat) :
    ((range n).sum fun k => lo64 (qhat.toNat * (v.limb k).toNat + productCarry qhat v k) * 2 ^ (64 * k)) +
      productCarry qhat v n * 2 ^ (64 * n) = qhat.toNat * divisorValue v n := by
  induction n with
  | zero => rfl
  | succ n ih =>
    have hsplit := lo64_add_hi64 (qhat.toNat * (v.limb n).toNat + productCarry qhat v n)
    rw [sum_range_succ, productCarry, divisorValue, valSlice_succ, ← divisorValue, Nat.zero_add, limb_pow_succ]
    linear_combination ih + 2 ^ (64 * n) * hsplit

theorem sum_productLimb (qhat : Word) (v : Uint256) (n : Nat) :
    ((range (n + 1)).sum fun k => productLimb qhat v n k * 2 ^ (64 * k)) = qhat.toNat * divisorValue v n := by
  have htop : productLimb qhat v n n = productCarry qhat v n := if_neg (Nat.lt_irrefl n)
  have hlow : ((range n).sum fun k => productLimb qhat v n k * 2 ^ (64 * k)) = (range n).sum fun k =>
      lo64 (qhat.toNat * (v.limb k).toNat + productCarry qhat v k) * 2 ^ (64 * k) :=
    sum_congr rfl fun k hk => by rw [productLimb, if_pos (mem_range.mp hk)]
  rw [sum_range_succ, htop, hlow, sum_lo64_add_productCarry]

/-! ### The comparison by limbs -/

theorem sum_limbs_lt {x : Nat → Nat} (hx : ∀ k, x k < 2 ^ 64) (c : Nat) :
    ((range c).sum fun k => x k * 2 ^ (64 * k)) < 2 ^ (64 * c) := by
  induction c with
  | zero => simp
  | succ c ih =>
    have := Nat.mul_le_mul_right (2 ^ (64 * c)) (Nat.succ_le_of_lt (hx c))
    rw [sum_range_succ, limb_pow_succ]
    linarith

/-- Arrays of limbs compare as the numbers they stand for. -/
theorem limbsGreater_iff {x y : Nat → Nat} (hx : ∀ k, x k < 2 ^ 64) (hy : ∀ k, y k < 2 ^ 64) (c : Nat) :
    limbsGreater x y c = true ↔
      ((range c).sum fun k => y k * 2 ^ (64 * k)) < (range c).sum fun k => x k * 2 ^ (64 * k) := by
  induction c with
  | zero => simp [limbsGreater]
  | succ c ih =>
    rw [limbsGreater, sum_range_succ, sum_range_succ]
    rcases Nat.lt_trichotomy (x c) (y c) with hlt | heq | hgt
    · have := sum_limbs_lt hx c
      have := Nat.mul_le_mul_right (2 ^ (64 * c)) (Nat.succ_le_of_lt hlt)
      rw [Nat.succ_mul] at this
      simp only [hlt.ne, hlt.le.not_gt, if_false, decide_false, Bool.false_eq_true, false_iff]
      omega
    · rw [if_pos heq, ih, heq]
      omega
    · have := sum_limbs_lt hy c
      have := Nat.mul_le_mul_right (2 ^ (64 * c)) (Nat.succ_le_of_lt hgt)
      rw [Nat.succ_mul] at this
      simp only [hgt.ne', hgt, if_false, decide_true, true_iff]
      omega

theorem productExceeds_iff (qhat : Word) (u : Uint320) (v : Uint256) (n j : Nat) :
    productExceeds qhat u v n j = true ↔ workingValue u n j < qhat.toNat * divisorValue v n := by
  rw [productExceeds, limbsGreater_iff (productLimb_lt qhat v n) (fun k => (u.limb (j + k)).isLt),
    sum_productLimb, workingValue, valSlice_eq_sum]

/-! ### The corrections -/

theorem productExceeds_iff_quotient_lt {qhat : Word} {u : Uint320} {v : Uint256} {n j : Nat}
    (hpos : 0 < divisorValue v n) :
    productExceeds qhat u v n j = true ↔ workingValue u n j / divisorValue v n < qhat.toNat := by
  rw [productExceeds_iff, Nat.div_lt_iff_lt_mul hpos]

/-- From a digit at most `fuel` too large, the loop ends at the true digit, one correction per unit it was too
large (43_correction_refiner.md R172 to R174). -/
theorem refineLoop_eq (n j fuel : Nat) {q : Nat} (dp : Datapath) (hpos : 0 < divisorValue dp.v n)
    (hq : workingValue dp.u n j / divisorValue dp.v n = q) (hge : q ≤ dp.qhat.toNat)
    (hle : dp.qhat.toNat ≤ q + fuel) :
    refineLoop n j fuel dp = { dp with
      qhat := BitVec.ofNat 64 q
      corr := dp.corr + BitVec.ofNat 2 (dp.qhat.toNat - q) } := by
  have hdone (d : Datapath) (h : d.qhat.toNat = q) :
      d = { d with qhat := BitVec.ofNat 64 q, corr := d.corr + BitVec.ofNat 2 (d.qhat.toNat - q) } := by
    rw [← h]
    simp
  induction fuel generalizing dp with
  | zero => exact hdone dp (by omega)
  | succ fuel ih =>
    unfold refineLoop
    split
    · next hexceeds =>
      have hlt : q < dp.qhat.toNat := hq ▸ (productExceeds_iff_quotient_lt hpos).mp hexceeds
      have hdec : (dp.qhat - 1).toNat = dp.qhat.toNat - 1 :=
        BitVec.toNat_sub_of_le (BitVec.le_def.mpr (Nat.one_le_of_lt hlt))
      have hcorr : dp.corr + 1 + BitVec.ofNat 2 (dp.qhat.toNat - 1 - q) =
          dp.corr + BitVec.ofNat 2 (dp.qhat.toNat - q) := by
        rw [BitVec.add_assoc, show (1 : BitVec 2) = BitVec.ofNat 2 1 from rfl, ← BitVec.ofNat_add,
          show 1 + (dp.qhat.toNat - 1 - q) = dp.qhat.toNat - q by omega]
      rw [ih { dp with qhat := dp.qhat - 1, corr := dp.corr + 1 } hpos hq (by simp only; omega)
        (by simp only; omega)]
      simp only [hdec, hcorr]
    · next hnot =>
      have hge' := mt (productExceeds_iff_quotient_lt hpos).mpr hnot
      exact hdone dp (by omega)

theorem refine_eq (n j : Nat) (dp : Datapath) (hpos : 0 < divisorValue dp.v n)
    (hge : workingValue dp.u n j / divisorValue dp.v n ≤ dp.qhat.toNat)
    (hle : dp.qhat.toNat ≤ workingValue dp.u n j / divisorValue dp.v n + 2) :
    refine n j dp = { dp with
      qhat := BitVec.ofNat 64 (workingValue dp.u n j / divisorValue dp.v n)
      corr := BitVec.ofNat 2 (dp.qhat.toNat - workingValue dp.u n j / divisorValue dp.v n) } := by
  rw [refine, refineLoop_eq n j 2 { dp with corr := 0 } hpos rfl hge hle]
  simp

end Sys2Proof.Machine
end

section
/-! The multiply-subtract as an equation of numbers (43_correction_refiner.md R175 to R178). -/

namespace Sys2Proof.Machine

theorem mulSubLimbs_carry_le (j : Nat) (dp : Datapath) (k : Nat) :
    (mulSubLimbs j dp k).carry.toNat ≤ 2 ^ 64 - 2 := by
  induction k with
  | zero => exact Nat.zero_le _
  | succ k ih =>
    obtain ⟨hq, hv, _⟩ := mulSubLimbs_frame j dp k
    have := (product_bound (q := (mulSubLimbs j dp k).qhat.toNat)
      (x := ((mulSubLimbs j dp k).v.limb k).toNat) (by omega) (by omega) ih).2
    simp only [mulSubLimbs, mulSubLimb, BitVec.toNat_ofNat]
    omega

theorem mulSubLimb_carry (j k : Nat) {dp : Datapath} (hc : dp.carry.toNat ≤ 2 ^ 64 - 2) :
    (mulSubLimb j k dp).carry.toNat = hi64 (dp.qhat.toNat * (dp.v.limb k).toNat + dp.carry.toNat) := by
  have := (product_bound (q := dp.qhat.toNat) (x := (dp.v.limb k).toNat) (by omega) (by omega) hc).2
  simp only [mulSubLimb, BitVec.toNat_ofNat]
  omega

theorem mulSubLimb_limb_of_ne {j k i : Nat} (dp : Datapath) (h : i ≠ j + k) :
    (mulSubLimb j k dp).u.limb i = dp.u.limb i :=
  Uint320.limb_setLimb_ne _ _ h

/-- After `k` limbs, the new limbs and the product's `k` limbs add up to the old limbs and what the product
carries and the subtraction borrows from above. -/
theorem mulSubLimbs_value (j : Nat) (dp : Datapath) {k : Nat} (hk : j + k ≤ 5) :
    valSlice (mulSubLimbs j dp k).u.limb j k + dp.qhat.toNat * divisorValue dp.v k =
      valSlice dp.u.limb j k +
        ((mulSubLimbs j dp k).carry.toNat + (mulSubLimbs j dp k).borrow.toNat) * 2 ^ (64 * k) := by
  induction k with
  | zero => rfl
  | succ k ih =>
    obtain ⟨hqhat, hv, _⟩ := mulSubLimbs_frame j dp k
    have hlow : valSlice (mulSubLimb j k (mulSubLimbs j dp k)).u.limb j k =
        valSlice (mulSubLimbs j dp k).u.limb j k :=
      valSlice_congr fun i hi => mulSubLimb_limb_of_ne _ (by omega)
    have hlimb := mulSubLimb_value j k (mulSubLimbs j dp k) (by omega)
    rw [mulSubLimbs_limb_of_notin j dp k (j + k) (by omega)] at hlimb
    have hcarry := mulSubLimb_carry j k (mulSubLimbs_carry_le j dp k)
    have hsplit := lo64_add_hi64 ((mulSubLimbs j dp k).qhat.toNat * ((mulSubLimbs j dp k).v.limb k).toNat +
      (mulSubLimbs j dp k).carry.toNat)
    rw [← hcarry, hqhat, hv] at hsplit
    rw [hqhat, hv] at hlimb
    rw [mulSubLimbs, valSlice_succ, hlow, divisorValue, valSlice_succ, ← divisorValue, valSlice_succ,
      Nat.zero_add, limb_pow_succ]
    linear_combination ih (by omega) + 2 ^ (64 * k) * (hlimb + hsplit.symm)

/-- The top limb as an equation of numbers. -/
theorem mulSubTop_value {n j : Nat} (dp : Datapath) (hn : j + n < 5) (hc : dp.carry.toNat ≤ 2 ^ 64 - 2) :
    ((mulSubTop n j dp).u.limb (j + n)).toNat + dp.carry.toNat + dp.borrow.toNat =
      (dp.u.limb (j + n)).toNat + (mulSubTop n j dp).borrow.toNat * 2 ^ 64 := by
  have hu := (dp.u.limb (j + n)).isLt
  have hb : dp.borrow.toNat ≤ 1 := Bool.toNat_le dp.borrow
  simp only [mulSubTop]
  rw [Uint320.limb_setLimb_self _ _ hn, BitVec.toNat_ofInt]
  by_cases ht : ((dp.u.limb (j + n)).toNat : Int) - dp.carry.toNat - dp.borrow.toNat < 0
  · simp only [ht, decide_true, Bool.toNat_true]
    omega
  · simp only [ht, decide_false, Bool.toNat_false]
    omega

theorem mulSub_limb_of_notin {n j i : Nat} (dp : Datapath) (h : i < j ∨ j + n < i) :
    (mulSub n j dp).u.limb i = dp.u.limb i := by
  have htop : (mulSub n j dp).u.limb i = (mulSubLimbs j dp n).u.limb i :=
    Uint320.limb_setLimb_ne _ _ (by omega)
  rw [htop, mulSubLimbs_limb_of_notin j dp n i (by omega)]

/-- 43_correction_refiner.md R175: the multiply-subtract takes the product off the working value, up to the
final borrow. -/
theorem mulSub_value {n j : Nat} (dp : Datapath) (hn : j + n < 5) :
    valSlice (mulSub n j dp).u.limb j (n + 1) + dp.qhat.toNat * divisorValue dp.v n =
      workingValue dp.u n j + (mulSub n j dp).borrow.toNat * 2 ^ (64 * (n + 1)) := by
  have hlow : valSlice (mulSub n j dp).u.limb j n = valSlice (mulSubLimbs j dp n).u.limb j n :=
    valSlice_congr fun i hi => Uint320.limb_setLimb_ne _ _ (by omega)
  have hlimbs := mulSubLimbs_value j dp (k := n) (by omega)
  have htop := mulSubTop_value (n := n) (mulSubLimbs j dp n) hn (mulSubLimbs_carry_le j dp n)
  rw [mulSubLimbs_limb_of_notin j dp n (j + n) (by omega), ← mulSub] at htop
  rw [valSlice_succ, hlow, workingValue, valSlice_succ, limb_pow_succ]
  linear_combination hlimbs + 2 ^ (64 * n) * htop

/-- 43_correction_refiner.md R177: the final borrow is 1 exactly when the product exceeds the working value. -/
theorem mulSub_borrow_iff {n j : Nat} (dp : Datapath) (hn : j + n < 5) :
    (mulSub n j dp).borrow = true ↔ workingValue dp.u n j < dp.qhat.toNat * divisorValue dp.v n := by
  have hval := mulSub_value dp hn
  have hnew := valSlice_lt (mulSub n j dp).u.limb j (n + 1)
  have hold : workingValue dp.u n j < 2 ^ (64 * (n + 1)) := valSlice_lt dp.u.limb j (n + 1)
  cases hb : (mulSub n j dp).borrow with
  | false =>
    rw [hb, Bool.toNat_false, Nat.zero_mul] at hval
    exact iff_of_false Bool.false_ne_true (by omega)
  | true =>
    rw [hb, Bool.toNat_true, Nat.one_mul] at hval
    exact iff_of_true rfl (by omega)

end Sys2Proof.Machine
end

section
/-! One step of the digit loop, and the loop, as long division in base `2^64` (43_correction_refiner.md R171, R178
to R181). -/

namespace Sys2Proof.Machine

/-- The refined digit of a step is the true one (43_correction_refiner.md R174). -/
theorem refine_runEstimator_qhat {p : Pretest} {n j : Nat} {dp : Datapath} (h : DigitReady dp.u dp.v n j) :
    (refine n j (runEstimator p n j dp)).qhat.toNat = workingValue dp.u n j / divisorValue dp.v n := by
  obtain ⟨hge, hle, hlt⟩ := h.trialDigit_bounds p
  have hqhat : (runEstimator p n j dp).qhat.toNat = trialDigit p dp.u dp.v n j := by
    rw [runEstimator, BitVec.toNat_ofNat, Nat.mod_eq_of_lt hlt]
  rw [refine_eq n j (runEstimator p n j dp) h.divisorValue_pos (by rwa [hqhat]) (by rwa [hqhat])]
  simp only [runEstimator_u, runEstimator_v, BitVec.toNat_ofNat]
  exact Nat.mod_eq_of_lt h.quotient_lt

/-- With the true digit the subtraction borrows nothing, and leaves the remainder of the working value with a zero
limb on top (43_correction_refiner.md R177, R178). -/
theorem mulSub_trueDigit {n j : Nat} {dp : Datapath} (hn : j + n < 5) (hpos : 0 < divisorValue dp.v n)
    (hq : dp.qhat.toNat = workingValue dp.u n j / divisorValue dp.v n) :
    (mulSub n j dp).borrow = false ∧ (mulSub n j dp).u.limb (j + n) = 0 ∧
      valSlice (mulSub n j dp).u.limb j n = workingValue dp.u n j % divisorValue dp.v n := by
  have hborrow : (mulSub n j dp).borrow = false := by
    rw [← Bool.not_eq_true, mulSub_borrow_iff dp hn, hq, Nat.not_lt]
    exact Nat.div_mul_le_self _ _
  have hval := mulSub_value dp hn
  have hdiv := Nat.div_add_mod' (workingValue dp.u n j) (divisorValue dp.v n)
  rw [hborrow, Bool.toNat_false, Nat.zero_mul, Nat.add_zero, hq, valSlice_succ] at hval
  have hmod := Nat.mod_lt (workingValue dp.u n j) hpos
  have hv : divisorValue dp.v n < 2 ^ (64 * n) := valSlice_lt dp.v.limb 0 n
  have htop : ((mulSub n j dp).u.limb (j + n)).toNat = 0 := by
    by_contra h0
    have := Nat.mul_le_mul_right (2 ^ (64 * n)) (Nat.one_le_iff_ne_zero.mpr h0)
    omega
  rw [htop] at hval
  exact ⟨hborrow, BitVec.eq_of_toNat_eq htop, by omega⟩

/-- One step of the digit loop is one step of long division (43_correction_refiner.md R178, R179). -/
theorem digitStep_divides (p : Pretest) {n j : Nat} {dp : Datapath} (h : DigitReady dp.u dp.v n j) :
    ∃ dp', digitStep p n j dp = some dp' ∧
      (dp'.qd.limb j).toNat = workingValue dp.u n j / divisorValue dp.v n ∧
      valSlice dp'.u.limb j n = workingValue dp.u n j % divisorValue dp.v n ∧
      dp'.u.limb (j + n) = 0 ∧ dp'.s = dp.s ∧
      (∀ i, i < j ∨ j + n < i → dp'.u.limb i = dp.u.limb i) := by
  have hq := refine_runEstimator_qhat (p := p) (dp := { dp with j := BitVec.ofNat 2 j }) h
  obtain ⟨hu, hv, _, hs⟩ := refine_frame n j (runEstimator p n j { dp with j := BitVec.ofNat 2 j })
  rw [runEstimator_u] at hu
  rw [runEstimator_v] at hv
  generalize hr : refine n j (runEstimator p n j { dp with j := BitVec.ofNat 2 j }) = r at *
  obtain ⟨hborrow, htop, hrem⟩ := mulSub_trueDigit (dp := r) h.topIndex_lt (by rw [hv]; exact h.divisorValue_pos)
    (by rw [hq, hu, hv])
  obtain ⟨hqhat, _, _, hs'⟩ := mulSub_frame n j r
  refine ⟨{ mulSub n j r with qd := (mulSub n j r).qd.setLimb j (mulSub n j r).qhat }, ?_, ?_, ?_, htop, ?_, ?_⟩
  · simp only [digitStep, hr, hborrow, Bool.false_eq_true, if_false]
  · simp only
    rw [Uint256.limb_setLimb_self _ _ h.digitIndex_lt, hqhat, hq]
  · rw [hrem, hu, hv]
  · exact hs'.trans hs
  · intro i hi
    rw [mulSub_limb_of_notin r hi, hu]

/-- After a step the next one may run: the remainder so far is below the divisor (43_correction_refiner.md
R171). -/
theorem DigitReady.next {n j : Nat} {u u' : Uint320} {v : Uint256} (h : DigitReady u v n (j + 1))
    (hrem : valSlice u'.limb (j + 1) n = workingValue u n (j + 1) % divisorValue v n) : DigitReady u' v n j := by
  have hmod := Nat.mod_lt (workingValue u n (j + 1)) h.divisorValue_pos
  obtain ⟨hn, hjn, htop, _⟩ := h
  exact ⟨hn, by omega, htop, by omega⟩

/-- Long division, one digit at a time: the top of the dividend `x + w b` is replaced by the remainder of `w`. -/
theorem div_mod_add_mul (x w b V : Nat) (hV : 0 < V) :
    (x + w * b) / V = (x + w % V * b) / V + w / V * b ∧ (x + w * b) % V = (x + w % V * b) % V := by
  have hsplit : x + w * b = x + w % V * b + V * (w / V * b) := by
    linear_combination b * (Nat.mod_add_div w V).symm
  rw [hsplit, Nat.add_mul_div_left _ _ hV, Nat.add_mul_mod_self_left]
  exact ⟨rfl, rfl⟩

/-- The digit loop from step `j` down divides the lowest `j + n + 1` limbs by the divisor: it records the digits of
the quotient and leaves the remainder, with zero limbs above it (43_correction_refiner.md R181). -/
theorem digitLoop_divides (p : Pretest) {n j : Nat} {dp : Datapath} (h : DigitReady dp.u dp.v n j) :
    ∃ last, digitLoop p n j dp = some last ∧
      valSlice last.qd.limb 0 (j + 1) = valSlice dp.u.limb 0 (j + n + 1) / divisorValue dp.v n ∧
      valSlice last.u.limb 0 n = valSlice dp.u.limb 0 (j + n + 1) % divisorValue dp.v n ∧
      (∀ i, n ≤ i → i ≤ j + n → last.u.limb i = 0) ∧ last.s = dp.s ∧
      (∀ k, j < k → last.qd.limb k = dp.qd.limb k) ∧
      (∀ i, j + n < i → last.u.limb i = dp.u.limb i) := by
  induction j generalizing dp with
  | zero =>
    obtain ⟨dp', hstep, hqd, hrem, htop, hs, hu⟩ := digitStep_divides p h
    obtain ⟨_, hqdframe⟩ := digitStep_frame hstep
    refine ⟨dp', hstep, ?_, ?_, ?_, hs, ?_, ?_⟩
    · simpa [valSlice, workingValue] using hqd
    · simpa [workingValue] using hrem
    · intro i hn hi
      rwa [show i = 0 + n by omega]
    · exact fun k hk => hqdframe k (by omega)
    · exact fun i hi => hu i (by omega)
  | succ j ih =>
    obtain ⟨dp', hstep, hqd, hrem, htop, hs, hu⟩ := digitStep_divides p h
    obtain ⟨hv, hqdframe⟩ := digitStep_frame hstep
    have hready : DigitReady dp'.u dp'.v n j := hv ▸ h.next hrem
    obtain ⟨last, hloop, hqlast, hrlast, hzero, hslast, hqdlast, hulast⟩ := ih hready
    have hlow : valSlice dp'.u.limb 0 (j + 1) = valSlice dp.u.limb 0 (j + 1) :=
      valSlice_congr fun i hi => hu _ (by omega)
    have hold : valSlice dp.u.limb 0 (j + 1 + n + 1) =
        valSlice dp.u.limb 0 (j + 1) + workingValue dp.u n (j + 1) * 2 ^ (64 * (j + 1)) := by
      rw [Nat.add_assoc (j + 1), valSlice_append, Nat.zero_add, workingValue, Nat.mul_comm]
    have hnew : valSlice dp'.u.limb 0 (j + n + 1) = valSlice dp.u.limb 0 (j + 1) +
        workingValue dp.u n (j + 1) % divisorValue dp.v n * 2 ^ (64 * (j + 1)) := by
      rw [Nat.add_right_comm, valSlice_append, hlow, Nat.zero_add, hrem, Nat.mul_comm]
    obtain ⟨hdiv, hmod⟩ := div_mod_add_mul (valSlice dp.u.limb 0 (j + 1)) (workingValue dp.u n (j + 1))
      (2 ^ (64 * (j + 1))) (divisorValue dp.v n) h.divisorValue_pos
    refine ⟨last, ?_, ?_, ?_, ?_, hslast.trans hs, ?_, ?_⟩
    · rw [digitLoop, hstep]
      exact hloop
    · rw [valSlice_succ, hqlast, hqdlast _ (by omega), Nat.zero_add, hqd, hv, hold, hnew, hdiv]
    · rw [hrlast, hv, hold, hnew, hmod]
    · intro i hn hi
      rcases Nat.lt_or_ge (j + n) i with hgt | hle
      · rw [hulast i hgt, show i = j + 1 + n by omega, htop]
      · exact hzero i hn hle
    · exact fun k hk => (hqdlast k (by omega)).trans (hqdframe k (by omega))
    · exact fun i hi => (hulast i (by omega)).trans (hu i (by omega))

end Sys2Proof.Machine
end

section
/-! The paths of a division give the exact pair (40_divmod.md R104 to R110, R114). -/

namespace Sys2Proof.Machine

/-! ### The single-limb path -/

/-- One limb of the single-limb division: digit and remainder of the two-limb window (40_divmod.md R106, R107). -/
theorem singleLimbStep_divides (D : Uint256) {d : Word} {i : Nat} {dp : Datapath} (hi : i < 4)
    (hr : dp.r.toNat < d.toNat) :
    ((singleLimbStep D d i dp).qd.limb i).toNat = (dp.r.toNat * 2 ^ 64 + (D.limb i).toNat) / d.toNat ∧
      (singleLimbStep D d i dp).r.toNat = (dp.r.toNat * 2 ^ 64 + (D.limb i).toNat) % d.toNat := by
  have hd := d.isLt
  have hD := (D.limb i).isLt
  have hq : (dp.r.toNat * 2 ^ 64 + (D.limb i).toNat) / d.toNat < 2 ^ 64 := by
    rw [Nat.div_lt_iff_lt_mul (by omega)]
    omega
  have hm := Nat.mod_lt (dp.r.toNat * 2 ^ 64 + (D.limb i).toNat) (y := d.toNat) (by omega)
  simp only [singleLimbStep]
  rw [Uint256.limb_setLimb_self _ _ hi, BitVec.toNat_ofNat, BitVec.toNat_ofNat]
  exact ⟨Nat.mod_eq_of_lt hq, Nat.mod_eq_of_lt (hm.trans hd)⟩

/-- The limbs from `i` up are divided: their digits and the running remainder are those of the number they
form. -/
def SingleLimbDone (D : Uint256) (d : Word) (i : Nat) (dp : Datapath) : Prop :=
  valSlice dp.qd.limb i (4 - i) = valSlice D.limb i (4 - i) / d.toNat ∧
    dp.r.toNat = valSlice D.limb i (4 - i) % d.toNat

theorem singleLimbDone_step {D : Uint256} {d : Word} {i : Nat} {dp : Datapath} (hd : d ≠ 0) (hi : i < 4)
    (h : SingleLimbDone D d (i + 1) dp) : SingleLimbDone D d i (singleLimbStep D d i dp) := by
  obtain ⟨hq, hr⟩ := h
  have hpos : 0 < d.toNat := Nat.pos_of_ne_zero fun h0 => hd (BitVec.eq_of_toNat_eq h0)
  obtain ⟨hdigit, hrem⟩ := singleLimbStep_divides D hi (hr ▸ Nat.mod_lt _ hpos)
  have hhigh : valSlice (singleLimbStep D d i dp).qd.limb (i + 1) (4 - (i + 1)) =
      valSlice dp.qd.limb (i + 1) (4 - (i + 1)) :=
    valSlice_congr fun k _ => Uint256.limb_setLimb_ne _ _ (by omega)
  obtain ⟨hdiv, hmod⟩ := div_mod_add_mul (D.limb i).toNat (valSlice D.limb (i + 1) (4 - (i + 1))) (2 ^ 64)
    d.toNat hpos
  rw [SingleLimbDone, show 4 - i = 4 - (i + 1) + 1 by omega, valSlice_cons, valSlice_cons, hdigit, hrem, hhigh,
    hq, hr, Nat.mul_comm (2 ^ 64), Nat.mul_comm (2 ^ 64), hdiv, hmod, Nat.add_comm (D.limb i).toNat]
  exact ⟨rfl, rfl⟩

/-- 40_divmod.md R106: the single-limb division is exact. -/
theorem singleLimb_divides (D : Uint256) {d : Word} (dp : Datapath) (hd : d ≠ 0) :
    (singleLimb D d dp).quotient = D.val / d.toNat ∧ (singleLimb D d dp).remainder = D.val % d.toNat := by
  have hstart : SingleLimbDone D d 4 { dp with r := 0 } := by simp [SingleLimbDone]
  have hdone : SingleLimbDone D d 0 (singleLimbRun D d dp) :=
    singleLimbDone_step hd (by decide) <| singleLimbDone_step hd (by decide) <|
      singleLimbDone_step hd (by decide) <| singleLimbDone_step hd (by decide) hstart
  obtain ⟨hq, hr⟩ := hdone
  rw [Uint256.val_eq_valSlice D, singleLimb, Uint256.val_eq_valSlice]
  exact ⟨hq, hr⟩

theorem val_of_one_limb {V : Uint256} (h : nlimbs V = 1) : V.val = (V.limb 0).toNat ∧ V.limb 0 ≠ 0 := by
  have hV : V.val ≠ 0 := fun h0 => by
    have : V = Uint256.zero := Uint256.val_injective h0
    rw [this] at h
    exact absurd h (by decide)
  have hval := val_eq_valSlice_nlimbs hV
  have htop := topLimb_ne_zero hV
  rw [h] at hval htop
  exact ⟨by simpa [valSlice] using hval, htop⟩

/-! ### The general path -/

theorem clearDigits_limb (qd : Uint256) {low i : Nat} :
    (clearDigits qd low).limb i = if low ≤ i then 0 else qd.limb i := by
  rcases i with _ | _ | _ | _ | i <;> simp [clearDigits, Uint256.limb]

theorem clearDigits_val (qd : Uint256) {low : Nat} (h : low ≤ 4) :
    (clearDigits qd low).val = valSlice qd.limb 0 low := by
  have hlow : valSlice (clearDigits qd low).limb 0 low = valSlice qd.limb 0 low :=
    valSlice_congr fun k hk => by rw [clearDigits_limb, if_neg (by omega)]
  rw [Uint256.val_eq_valSlice, valSlice_of_high_zero h, hlow]
  exact fun i hi => by rw [Nat.zero_add, clearDigits_limb, if_pos hi]

/-- 43_correction_refiner.md R181: the digit loop on the normalized operands. -/
theorem digitLoop_normalize (p : Pretest) {D V : Uint256} (dp : Datapath) (hV : V.val ≠ 0)
    (hle : V.val ≤ D.val) :
    ∃ last, digitLoop p (nlimbs V) (nlimbs D - nlimbs V) (normalize D V dp) = some last ∧
      valSlice last.qd.limb 0 (nlimbs D - nlimbs V + 1) = D.val / V.val ∧
      (∀ i, nlimbs V ≤ i → i ≤ nlimbs D → last.u.limb i = 0) ∧
      valSlice last.u.limb 0 (nlimbs V) = D.val % V.val * 2 ^ normShift V ∧
      last.s.toNat = normShift V := by
  obtain ⟨last, hloop, hq, hr, hzero, hs, _⟩ := digitLoop_divides p (digitReady_normalize hV hle dp)
  have hnm := nlimbs_mono hV hle
  rw [Nat.sub_add_cancel hnm, valSlice_normalize_u (by omega) hV, divisorValue_normalize hV] at hq hr
  rw [Nat.mul_div_mul_right _ _ (Nat.two_pow_pos _)] at hq
  rw [Nat.mul_mod_mul_right] at hr
  exact ⟨last, hloop, hq, fun i hn hi => hzero i hn (by omega), hr, by rw [hs, normalize_s hV]⟩

/-- The general path gives the exact pair for every divisor not above the dividend (40_divmod.md R109). -/
theorem general_divides (p : Pretest) {D V : Uint256} (dp : Datapath) (hV : V.val ≠ 0) (hle : V.val ≤ D.val) :
    ∃ r, general p D V dp = some r ∧ r.quotient = D.val / V.val ∧ r.remainder = D.val % V.val := by
  obtain ⟨last, hloop, hq, _, hr, hs⟩ := digitLoop_normalize p dp hV hle
  have hm := nlimbs_le D
  have hn := one_le_nlimbs hV
  simp only [general, normalize_n, normalize_m, hloop]
  refine ⟨_, rfl, ?_, ?_⟩
  · rw [clearDigits_val _ (by omega), hq]
  · rw [hs, denormalize_val _ (nlimbs_le V) (normShift_le hV), hr, Nat.mul_div_cancel _ (Nat.two_pow_pos _)]

/-! ### Every path -/

/-- 40_divmod.md R114: whichever path runs, it gives the exact pair. -/
theorem divide_divides (p : Pretest) (D : Uint256) {V : Uint256} (dp : Datapath) (hV : V.val ≠ 0) :
    ∃ r, divide p D V dp = some r ∧ r.quotient = D.val / V.val ∧ r.remainder = D.val % V.val := by
  unfold divide
  split
  · next hlt => exact ⟨_, rfl, (Nat.div_eq_of_lt hlt).symm, (Nat.mod_eq_of_lt hlt).symm⟩
  · next hge =>
    split
    · next hone =>
      obtain ⟨hval, hd⟩ := val_of_one_limb hone
      obtain ⟨hq, hr⟩ := singleLimb_divides D dp hd
      exact ⟨_, rfl, by rw [hq, hval], by rw [hr, hval]⟩
    · split
      · next heq =>
        subst heq
        exact ⟨_, rfl, (Nat.div_self (Nat.pos_of_ne_zero hV)).symm, (Nat.mod_self _).symm⟩
      · exact general_divides p dp hV (Nat.le_of_not_lt hge)

end Sys2Proof.Machine
end

section
/-! DIVMOD completes from every state with operands ready (40_divmod.md R103, R119). -/

namespace Sys2Proof.Machine

variable {s : State}

theorem exec_divmod_result (hr : s.operandsReady = true) (hv : s.b.val ≠ 0) :
    exec .divmod s = .next (s.writeResult (s.a.val / s.b.val) (s.a.val % s.b.val)) := by
  obtain ⟨res, hdivide, hq, hrem⟩ := divide_divides s.config.pretest s.a s.datapath hv
  simp [exec, execDivmod, hr, hv, hdivide, hq, hrem]

theorem exec_divmod_zero (hr : s.operandsReady = true) (hv : s.b.val = 0) :
    exec .divmod s = .next s.divisionByZero := by
  simp [exec, execDivmod, hr, hv]

theorem statusAfterResult_eq : statusAfterResult = 0x0000000000000001 := by decide

end Sys2Proof.Machine
end

section
namespace Sys2Proof.Machine

/-- Settles O24: DIVMOD writes the exact pair, which every path computes, and a zero divisor is
DivisionByZero. -/
theorem divmodGivesQuotientAndRemainder : Obligations.DivmodGivesQuotientAndRemainder := by
  unfold Obligations.DivmodGivesQuotientAndRemainder
  refine fun s hr => ⟨fun hv => ⟨_, exec_divmod_result hr hv, ?_⟩,
    fun hv => ⟨_, exec_divmod_zero hr hv, by simp, by simp⟩⟩
  have hpos : 0 < s.b.val := Nat.pos_of_ne_zero hv
  have hq : s.a.val / s.b.val < 2 ^ 256 := Nat.lt_of_le_of_lt (Nat.div_le_self _ _) s.a.val_lt
  have hrm : s.a.val % s.b.val < 2 ^ 256 := (Nat.mod_lt _ hpos).trans s.b.val_lt
  rw [State.writeResult_q, State.writeResult_rm, Uint256.val_ofNat hq, Uint256.val_ofNat hrm]
  refine ⟨rfl, rfl, (Nat.div_add_mod' _ _).symm, Nat.mod_lt _ hpos, fun k hk => ?limbs, ?frame⟩
  case limbs =>
    rw [State.cell_q _ hk, State.cell_rm]
    exact ⟨Uint256.limb_ofNat _ hk, Uint256.limb_ofNat _ hk⟩
  case frame =>
    rw [State.writeResult_status, statusAfterResult_eq]
    exact ⟨rfl, s.writeResult_a _ _, s.writeResult_b _ _, s.writeResult_written _ _, s.writeResult_config _ _,
      s.writeResult_port _ _, s.writeResult_responses _ _⟩

/-- Settles O28: both outcomes of DIVMOD are written in terms of A and B alone. -/
theorem divmodDependsOnlyOnTheOperands : Obligations.DivmodDependsOnlyOnTheOperands := by
  unfold Obligations.DivmodDependsOnlyOnTheOperands
  intro s s' hr hr' ha hb
  by_cases hv : s.b.val = 0
  · exact ⟨_, _, exec_divmod_zero hr hv, exec_divmod_zero hr' (hb ▸ hv), by simp, fun h => absurd hv h⟩
  · refine ⟨_, _, exec_divmod_result hr hv, exec_divmod_result hr' (hb ▸ hv), by simp, fun _ => ?_⟩
    simp [ha, hb]

/-- Settles O26: DIVMOD ends in DivisionByZero or in a result, as the divisor is zero or not, and no other word
decodes to it. -/
theorem divmodRaisesOnlyDivisionByZero : Obligations.DivmodRaisesOnlyDivisionByZero := by
  unfold Obligations.DivmodRaisesOnlyDivisionByZero
  refine ⟨fun s hr => ?completes, fun w s hw => ?illegal⟩
  case completes =>
    by_cases hv : s.b.val = 0
    · exact ⟨_, exec_divmod_zero hr hv, by simp [hv], by simp [hv], by simp [statusAfterDivisionByZero]⟩
    · exact ⟨_, exec_divmod_result hr hv, by simp [hv], by simp [hv], by simp [statusAfterResult]⟩
  case illegal =>
    obtain ⟨e, he⟩ := decode_illegal (mt divmodFields_iff.mp hw)
    exact issueCommand_error he s

end Sys2Proof.Machine
end


section
/-! What the limb count and the leading-zero count find (41_normalizer.md R130, R132). -/

namespace Sys2Proof.Machine

theorem getLsbD_top_of_ne_zero {x : Word} (hx : x ≠ 0) : x.getLsbD (63 - clz64 x) = true :=
  clzBelow_top x (k := 64) (Nat.lt_succ_of_le (clz64_le hx))

/-- A bit index above the top one bit is a leading zero, or is outside the limb. -/
theorem getLsbD_eq_false_of_top_lt {x : Word} (hx : x ≠ 0) {k : Nat} (hk : 63 - clz64 x < k) :
    x.getLsbD k = false := by
  by_cases h64 : k < 64
  · have hle : clz64 x ≤ 63 := clz64_le hx
    have hlow : 64 - clz64 x ≤ k := by omega
    exact getLsbD_of_clzBelow x hlow h64
  · exact BitVec.getLsbD_of_ge x k (Nat.le_of_not_lt h64)

/-- Settles O35: the count stops at the highest one bit, and every bit it has passed is zero. -/
theorem leadingZeroCountFindsTheTopOneBit : Obligations.LeadingZeroCountFindsTheTopOneBit := by
  unfold Obligations.LeadingZeroCountFindsTheTopOneBit
  exact fun x hx => ⟨clz64_le hx, getLsbD_top_of_ne_zero hx, fun k => getLsbD_eq_false_of_top_lt hx⟩

/-- Settles O34: by the bounds of the limb count, its top limb and the zero limbs above it. -/
theorem limbCountFindsTheTopNonzeroLimb : Obligations.LimbCountFindsTheTopNonzeroLimb := by
  unfold Obligations.LimbCountFindsTheTopNonzeroLimb
  exact fun x hx => ⟨one_le_nlimbs hx, nlimbs_le x, topLimb_ne_zero hx, fun i => limb_eq_zero_of_nlimbs_le hx⟩

end Sys2Proof.Machine
end

section
/-! The exceptions of 60_exceptions.md: what an illegal command word (R204), an access without its right, index or
shape (R205), and a zero divisor (R201) leave behind. -/

namespace Sys2Proof.Machine

variable {s : State} {host : Nat} {idx : RegIndex}

/-! ### IllegalCommand -/

/-- Every word but the one of DIVMOD is an illegal command. -/
theorem issueCommand_of_ne_divmod {w : Word} (h : w ≠ encode .divmod) (s : State) :
    issueCommand w s = .next s.illegalCommand := by
  obtain ⟨e, he⟩ := decode_illegal (mt divmodFields_iff.mp h)
  exact issueCommand_error he s

/-! ### AccessError -/

theorem step_read {rest : List Event} (hp : s.port = .access host (.read idx) :: rest) :
    step s = readAccess host .data idx (s.setPort rest) := step_access hp

/-- From CMD on, STATUS is the only register with a read right (10_state.md R21). -/
theorem regRead_denied (h16 : 16 ≤ idx.toNat) (h17 : idx.toNat ≠ 17) :
    regRead s idx = .error (.accessError (.register idx)) := by
  have h8 : ¬ idx.toNat < 8 := by omega
  simp [regRead, h8, Nat.not_lt.mpr h16, h17]

theorem step_read_denied {rest : List Event} (hp : s.port = .access host (.read idx) :: rest)
    (h16 : 16 ≤ idx.toNat) (h17 : idx.toNat ≠ 17) :
    step s = .fault (.accessError (.register idx)) := by
  rw [step_read hp, readAccess_error (regRead_denied h16 h17)]

theorem step_write_denied {v : Word} {rest : List Event}
    (hp : s.port = .access host (.write idx v) :: rest) (h8 : 8 ≤ idx.toNat) (h16 : idx.toNat ≠ 16) :
    step s = .fault (.accessError (.register idx)) := by
  rw [step_write hp, regWrite_denied h8 h16]
  rfl

/-- An access at an address of the window is malformed by its size or its alignment (20_memory.md R52): a
register's eight bytes are aligned, since `DIV_BASE` is. -/
theorem busTarget_of_size_or_alignment {c : Config} {addr size : Nat} (hlow : c.divBase ≤ addr)
    (hhigh : addr < c.divBase + 256) (hshape : size ≠ 8 ∨ addr % 8 ≠ 0) :
    busTarget c addr size = .malformed := by
  refine busTarget_malformed (by omega) hhigh ?_
  rintro ⟨rfl, reg, rfl⟩
  have halign : (c.divBase + 8 * reg.toNat) % 8 = 0 := by
    simp only [Config.divBase]
    omega
  exact hshape.elim (absurd rfl) (absurd halign)

/-! ### DivisionByZero -/

@[simp] theorem statusIllcmd_afterDivisionByZero : statusIllcmd statusAfterDivisionByZero = false := by
  simp [statusAfterDivisionByZero]

theorem statusAfterDivisionByZero_eq : statusAfterDivisionByZero = 0x0000000000000002 := by decide

/-- Where unspecified values fault, no result register can be read while STATUS.VALID is 0 (10_state.md R24). -/
theorem regRead_resultNotValid (hfault : s.config.onUnspecified = .fault)
    (hvalid : statusValid s.status = false) (h8 : 8 ≤ idx.toNat) (h16 : idx.toNat < 16) :
    regRead s idx = .error (.resultNotValid idx) := by
  obtain ⟨_, _, hreadable⟩ := State.ready_of_fault hfault
  simp [regRead_result s h8 h16, hreadable, hvalid]

end Sys2Proof.Machine
end

section
namespace Sys2Proof.Machine

/-- Settles O6: the word is no DIVMOD, so the write ends in IllegalCommand, which writes STATUS alone, and then
completes. -/
theorem illegalCommandRecordsOnlyIllcmd : Obligations.IllegalCommandRecordsOnlyIllcmd := by
  unfold Obligations.IllegalCommandRecordsOnlyIllcmd
  intro s host w rest hp hw
  have hstep : step s = .next ((s.setPort rest).illegalCommand.respond host .done) := by
    rw [step_write hp, regWrite_command (idx := cmdIndex) rfl, issueCommand_of_ne_divmod hw]
    rfl
  exact ⟨_, hstep, by simp⟩

/-- Settles O17: an index without the right faults in `RegRead` or `RegWrite`, and a byte-offset access of the
wrong shape reaches no register. -/
theorem accessErrorOnEveryListedCause : Obligations.AccessErrorOnEveryListedCause := by
  unfold Obligations.AccessErrorOnEveryListedCause
  refine fun s host a rest hp => ⟨?readCmd, ?writeResult, ?writeStatus, ?readReserved, ?writeReserved,
    ?busRead, ?busWrite⟩
  case readCmd =>
    rintro rfl
    exact step_read_denied hp (by decide) (by decide)
  case writeResult =>
    rintro idx v rfl h8 h16
    exact step_write_denied hp h8 (Nat.ne_of_lt h16)
  case writeStatus =>
    rintro v rfl
    exact step_write_denied hp (by decide) (by decide)
  case readReserved =>
    rintro idx rfl h18
    exact step_read_denied hp (by omega) (by omega)
  case writeReserved =>
    rintro idx v rfl h18
    exact step_write_denied hp (by omega) (by omega)
  case busRead =>
    rintro addr size rfl hlow hhigh hshape
    rw [step_access hp]
    exact performAccess_busRead_malformed (busTarget_of_size_or_alignment hlow hhigh hshape)
  case busWrite =>
    rintro addr data rfl hlow hhigh hshape
    rw [step_access hp]
    exact performAccess_busWrite_malformed (busTarget_of_size_or_alignment hlow hhigh hshape)

/-- Settles O25: a zero divisor ends in DivisionByZero, whose STATUS has VALID 0, so that no result register may be
read. -/
theorem divisionByZeroRecordsDbzAlone : Obligations.DivisionByZeroRecordsDbzAlone := by
  unfold Obligations.DivisionByZeroRecordsDbzAlone
  intro s hr hv
  have hvalid : statusValid s.divisionByZero.status = false := by simp
  exact ⟨_, exec_divmod_zero hr hv, hvalid, by simp, by simp, statusAfterDivisionByZero_eq,
    fun hfault _ => regRead_resultNotValid hfault hvalid, by simp⟩

end Sys2Proof.Machine
end

section
/-! The units of a platform (60_exceptions.md R215). -/

namespace Sys2Proof.Machine

/-- A step of a platform's unit `k` that completes: there is no such unit and nothing changes, or the unit makes
its own step and its new state stands in its place. -/
theorem Platform.stepUnit_next {p p' : Platform} {k : Nat} (h : p.stepUnit k = .next p') :
    (p.units[k]? = none ∧ p' = p) ∨
    (∃ s t, p.units[k]? = some s ∧ step s = .next t ∧ p'.units = p.units.set k t) := by
  unfold Platform.stepUnit at h
  split at h
  · next hunit => exact .inl ⟨hunit, by simpa using h.symm⟩
  · next s hunit =>
    split at h
    · next t hstep =>
      cases h
      exact .inr ⟨s, t, hunit, hstep, rfl⟩
    · simp at h
    · simp at h

/-- Settles O52: the new list of units is the old one with the stepped unit's own next state in its place. -/
theorem instancesShareNoState : Obligations.InstancesShareNoState := by
  unfold Obligations.InstancesShareNoState
  intro p p' k h
  obtain ⟨hnone, rfl⟩ | ⟨s, t, hunit, hstep, hunits⟩ := Platform.stepUnit_next h
  · exact ⟨rfl, fun _ _ => rfl, by simp [hnone]⟩
  · obtain ⟨hk, _⟩ := List.getElem?_eq_some_iff.mp hunit
    rw [hunits]
    refine ⟨List.length_set, fun j hj => List.getElem?_set_ne hj.symm, fun s' hs' => ⟨t, ?_, ?_⟩⟩
    · rwa [Option.some.inj (hs'.symm.trans hunit)]
    · exact List.getElem?_set_self hk

end Sys2Proof.Machine
end

section
/-! The state that reset leaves (70_reset_and_hazards.md R230). -/

namespace Sys2Proof.Machine

@[simp] theorem OperandMarks.isWritten_none (i : Nat) : OperandMarks.none.isWritten i = false := by
  unfold OperandMarks.isWritten
  split <;> rfl

/-- The STATUS of reset is the word of three fields that are 0. -/
theorem State.reset_status : State.reset.status = statusWord false false false := by decide

/-- Settles O10: the reset STATUS has VALID 0, and where unspecified values fault that alone keeps every result
register from being read, whatever the other parameters. -/
theorem resetLeavesStatusZeroAndNoResult : Obligations.ResetLeavesStatusZeroAndNoResult := by
  unfold Obligations.ResetLeavesStatusZeroAndNoResult
  have hvalid : statusValid State.reset.status = false := by simp [State.reset_status]
  have hdbz : statusDbz State.reset.status = false := by simp [State.reset_status]
  have hillcmd : statusIllcmd State.reset.status = false := by simp [State.reset_status]
  exact ⟨rfl, hvalid, hdbz, hillcmd, OperandMarks.isWritten_none,
    fun _ hfault _ => regRead_resultNotValid hfault hvalid⟩

end Sys2Proof.Machine
end

section
/-! The normalizer for every dividend, zero included (41_normalizer.md R133 to R138), and the operand pair of each path
(40_divmod.md R104). -/

namespace Sys2Proof.Machine

theorem nlimbs_zero : nlimbs Uint256.zero = 0 := by decide

/-- The normalized dividend is `D 2^s` for a zero dividend too, which has no effective limb. -/
theorem valSlice_normalize_u_of_any (D : Uint256) {V : Uint256} (hV : V.val ≠ 0) (dp : Datapath) :
    valSlice (normalize D V dp).u.limb 0 (nlimbs D + 1) = D.val * 2 ^ normShift V := by
  by_cases hD : D.val = 0
  · obtain rfl : D = Uint256.zero := Uint256.val_injective hD
    have hlimb : (normalize Uint256.zero V dp).u.limb 0 = 0 := by
      apply BitVec.eq_of_toNat_eq
      rw [normalize_u_limb, if_pos (Nat.succ_pos _), shiftLimb_toNat _ _ _ (normShift_le hV), nlimbs_zero]
      simp [shiftCarry]
    simp [nlimbs_zero, valSlice_succ, hlimb, hD]
  · exact valSlice_normalize_u hD hV dp

/-- What the path tests leave to the general path: a divisor of two limbs or more below the dividend
(40_divmod.md R104, 41_normalizer.md R131). -/
theorem general_operands {D V : Uint256} (hV : V.val ≠ 0) (hle : V.val ≤ D.val) (hone : nlimbs V ≠ 1)
    (hne : D ≠ V) : V.val < D.val ∧ 2 ≤ nlimbs V ∧ nlimbs V ≤ nlimbs D ∧ nlimbs D ≤ 4 := by
  have hpos := one_le_nlimbs hV
  have hval : D.val ≠ V.val := fun h => hne (Uint256.val_injective h)
  exact ⟨by omega, by omega, nlimbs_mono hV hle, nlimbs_le D⟩

/-- Equal operands give (1, 0) whichever path they take (40_divmod.md R104, R108). -/
theorem divide_self (p : Pretest) {V : Uint256} (dp : Datapath) (hV : V.val ≠ 0) :
    ∃ r, divide p V V dp = some r ∧ r.quotient = 1 ∧ r.remainder = 0 := by
  obtain ⟨r, hr, hq, hrem⟩ := divide_divides p V dp hV
  exact ⟨r, hr, by rw [hq, Nat.div_self (Nat.pos_of_ne_zero hV)], by rw [hrem, Nat.mod_self]⟩

end Sys2Proof.Machine
end

section
namespace Sys2Proof.Machine

/-- Settles O33: every path gives the exact pair, and the general path does for every divisor not above the dividend,
of one limb too. -/
theorem everyPathGivesTheExactPair : Obligations.EveryPathGivesTheExactPair := by
  unfold Obligations.EveryPathGivesTheExactPair
  refine ⟨fun p D V dp hV => divide_divides p D dp hV, fun D V dp hone hle => ?_⟩
  obtain ⟨hval, hd⟩ := val_of_one_limb hone
  have hV : V.val ≠ 0 := fun h0 => hd (BitVec.eq_of_toNat_eq (hval ▸ h0))
  exact general_divides .off dp hV hle

/-- Settles O46: the digit loop, run on the normalized operands, is long division by `V`. -/
theorem digitLoopDividesTheNormalizedOperands : Obligations.DigitLoopDividesTheNormalizedOperands := by
  unfold Obligations.DigitLoopDividesTheNormalizedOperands
  intro p D V dp hV hle
  obtain ⟨last, hloop, hq, hzero, hr, _⟩ := digitLoop_normalize p dp hV hle
  exact ⟨last, hloop, hq, hzero, hr⟩

/-- Settles O45: a step of the loop is a step of long division, and its frame is that of the blocks it runs. -/
theorem digitStepDividesTheWorkingValue : Obligations.DigitStepDividesTheWorkingValue := by
  unfold Obligations.DigitStepDividesTheWorkingValue
  intro p n j dp h
  obtain ⟨dp', hstep, hqd, hrem, htop, _, hu⟩ := digitStep_divides p h
  obtain ⟨hv, hqdframe⟩ := digitStep_frame hstep
  exact ⟨dp', hstep, hqd, hrem, htop, hv, hqdframe, hu⟩

/-- Settles O39, by the bounds of the classic estimate. -/
theorem estimateIsAtMostTwoTooLarge : Obligations.EstimateIsAtMostTwoTooLarge := by
  unfold Obligations.EstimateIsAtMostTwoTooLarge
  exact fun u v n j h => h.estimate_bounds

/-- Settles O31: the tests are taken in the order of `divide`, and the pair of equal operands follows from the exactness
of every path. -/
theorem dividePathsAreTestedInOrder : Obligations.DividePathsAreTestedInOrder := by
  unfold Obligations.DividePathsAreTestedInOrder
  refine fun p D V dp hV => ⟨fun hgt => ?greater, fun hle hone => ?single, fun hone heq => ?equal, fun heq => ?pair,
    fun hle hone hne => ⟨?general, general_operands hV hle hone hne⟩⟩
  case greater => exact ⟨fastGreater D dp, if_pos hgt, rfl, rfl⟩
  case single => rw [divide, if_neg (Nat.not_lt.mpr hle), if_pos hone]
  case equal =>
    subst heq
    rw [divide, if_neg (Nat.lt_irrefl _), if_neg hone, if_pos rfl]
  case pair =>
    subst heq
    exact divide_self p dp hV
  case general => rw [divide, if_neg (Nat.not_lt.mpr hle), if_neg hone, if_neg hne]

/-- Settles O32: the four limbs give the exact pair, and each of them a whole digit of its two-limb window. -/
theorem singleLimbDivisionIsExact : Obligations.SingleLimbDivisionIsExact := by
  unfold Obligations.SingleLimbDivisionIsExact
  intro D d dp hd
  obtain ⟨hq, hr⟩ := singleLimb_divides D dp hd
  refine ⟨hq, hr, fun i c hi hc => ?_⟩
  obtain ⟨hdigit, hrem⟩ := singleLimbStep_divides D hi hc
  exact ⟨hdigit, hrem, hrem ▸ Nat.mod_lt _ (Nat.zero_lt_of_lt hc)⟩

/-- Settles O36: both operands are shifted by the leading zeros of the divisor's top limb, and the limbs above are not
written. -/
theorem normalizationScalesBothOperands : Obligations.NormalizationScalesBothOperands := by
  unfold Obligations.NormalizationScalesBothOperands
  refine fun D V dp hV => ⟨normShift_le hV, normalize_s hV D dp, divisorValue_normalize hV D dp,
    normalize_topLimb hV D dp, valSlice_normalize_u_of_any D hV dp, fun i hi => ?divisor, fun i hi => ?dividend⟩
  case divisor => rw [normalize_v_limb, if_neg (Nat.not_lt.mpr hi)]
  case dividend => rw [normalize_u_limb, if_neg (Nat.not_lt.mpr hi)]

/-- Settles O37: the value shifted right by `s` is the remainder, since `2^s` divides it. -/
theorem denormalizationUndoesTheShift : Obligations.DenormalizationUndoesTheShift := by
  unfold Obligations.DenormalizationUndoesTheShift
  intro u n s r hn hs hval
  refine ⟨?_, fun i hi => denormalize_limb_of_ge u s hi⟩
  rw [denormalize_val u hn hs, hval, Nat.mul_div_cancel _ (Nat.two_pow_pos s)]

/-- Settles O38, by the bound on the scaled dividend. -/
theorem digitLoopStartsReady : Obligations.DigitLoopStartsReady := by
  unfold Obligations.DigitLoopStartsReady
  exact fun D V dp hV hle => digitReady_normalize hV hle dp

/-- Settles O42, by the product and the comparison of limb arrays as numbers. -/
theorem limbProductComparesExactly : Obligations.LimbProductComparesExactly := by
  unfold Obligations.LimbProductComparesExactly
  exact fun qhat u v n j _ =>
    ⟨sum_productLimb qhat v n, productLimb_lt qhat v n, productExceeds_iff qhat u v n j⟩

/-- Settles O43: the refiner's result is the datapath before with the true digit and the excess of the trial digit, both
of which their registers hold. -/
theorem refinerReturnsTheTrueDigit : Obligations.RefinerReturnsTheTrueDigit := by
  unfold Obligations.RefinerReturnsTheTrueDigit
  intro n j dp _ hpos hge hle
  have heq := refine_eq n j dp hpos hge hle
  have hqhat : (refine n j dp).qhat.toNat = workingValue dp.u n j / divisorValue dp.v n := by
    rw [heq]
    exact Nat.mod_eq_of_lt (Nat.lt_of_le_of_lt hge dp.qhat.isLt)
  have hcorr : (refine n j dp).corr.toNat =
      dp.qhat.toNat - workingValue dp.u n j / divisorValue dp.v n := by
    rw [heq]
    exact Nat.mod_eq_of_lt (by omega)
  exact ⟨hqhat, hcorr, by omega, heq⟩

/-- Settles O44, by the multiply-subtract as an equation of numbers. -/
theorem multiplySubtractIsExact : Obligations.MultiplySubtractIsExact := by
  unfold Obligations.MultiplySubtractIsExact
  intro n j dp hjn
  have hn : j + n < 5 := Nat.lt_succ_of_le hjn
  exact ⟨mulSub_value dp hn, mulSub_borrow_iff dp hn, fun k _ => mulSubLimbs_carry_le j dp k,
    fun i hi => mulSub_limb_of_notin dp hi⟩

end Sys2Proof.Machine
end

section
/-! When the estimate is clamped (42_trial_quotient.md R152), and where the two-limb pretest stops (R155). -/

namespace Sys2Proof.Machine

section Ready

variable {u : Uint320} {v : Uint256} {n j : Nat} (h : DigitReady u v n j)
include h

/-- The remainder so far is below the divisor, and so its top limb is not above the divisor's. -/
theorem DigitReady.topLimb_le : (u.limb (j + n)).toNat ≤ (v.limb (n - 1)).toNat := by
  obtain ⟨hn, _, _, hlt⟩ := h
  obtain ⟨c, rfl⟩ := Nat.exists_eq_add_of_le' hn
  have hu := valSlice_succ_ge u.limb (j + 1) c
  obtain ⟨_, hv⟩ := divisorValue_top v c
  rw [show j + 1 + c = j + (c + 1) by omega] at hu
  rw [Nat.add_sub_cancel]
  exact Nat.le_of_lt_succ (lt_of_mul_lt_mul_right (lt_of_le_of_lt hu (hlt.trans hv)) (Nat.zero_le (2 ^ (64 * c))))

/-- 42_trial_quotient.md R152: with equal top limbs the unclamped estimate is one or two above the largest digit. -/
theorem DigitReady.estimateRaw_of_top_eq (heq : u.limb (j + n) = v.limb (n - 1)) :
    2 ^ 64 ≤ estimateRaw u v n j ∧ estimateRaw u v n j ≤ 2 ^ 64 + 1 := by
  obtain ⟨_, _, htop, _⟩ := h
  have hlow := (u.limb (j + n - 1)).isLt
  have hpos : 0 < (v.limb (n - 1)).toNat := by omega
  rw [estimateRaw, topTwo, heq, Nat.mul_add_div hpos]
  have hquot : (u.limb (j + n - 1)).toNat / (v.limb (n - 1)).toNat < 2 := by
    rw [Nat.div_lt_iff_lt_mul hpos]
    omega
  exact ⟨Nat.le_add_right _ _, Nat.add_le_add_left (Nat.le_of_lt_succ hquot) _⟩

/-- With the top limb of the working value below the divisor's, the estimate fits a limb. -/
theorem DigitReady.estimateRaw_of_top_ne (hne : u.limb (j + n) ≠ v.limb (n - 1)) :
    estimateRaw u v n j < 2 ^ 64 := by
  have hle := h.topLimb_le
  have hne' : (u.limb (j + n)).toNat ≠ (v.limb (n - 1)).toNat := fun h' => hne (BitVec.eq_of_toNat_eq h')
  have hlow := (u.limb (j + n - 1)).isLt
  rw [estimateRaw, topTwo, Nat.div_lt_iff_lt_mul (by omega)]
  omega

/-- The partial remainder of the estimate fits 65 bits (42_trial_quotient.md R155). -/
theorem DigitReady.partialRemainder_lt :
    topTwo u n j - estimate u v n j * (v.limb (n - 1)).toNat < 2 ^ 65 := by
  have hv := (v.limb (n - 1)).isLt
  by_cases heq : u.limb (j + n) = v.limb (n - 1)
  · obtain ⟨hge, _⟩ := h.estimateRaw_of_top_eq heq
    have hlow := (u.limb (j + n - 1)).isLt
    rw [estimate, Nat.min_eq_right (by omega), topTwo, heq]
    omega
  · have hlt := h.estimateRaw_of_top_ne heq
    obtain ⟨_, _, htop, _⟩ := h
    have hmod := Nat.mod_lt (topTwo u n j) (y := (v.limb (n - 1)).toNat) (by omega)
    rw [estimate, Nat.min_eq_left (by omega), estimateRaw, Nat.mul_comm, ← Nat.mod_eq_sub_mul_div]
    omega

end Ready

/-- Each round of the pretest raises the partial remainder by the top divisor limb `d`, so that after `fuel` rounds with
`2^64 ≤ r + fuel d` its condition is false (42_trial_quotient.md R155, assumption 18). -/
theorem pretestLoop_exit {d e w : Nat} (hd : d < 2 ^ 64) (fuel : Nat) {qr : Nat × Nat} (hr : qr.2 < 2 ^ 65)
    (hfuel : 2 ^ 64 ≤ qr.2 + fuel * d) :
    (pretestLoop d e w fuel qr).2 < 2 ^ 65 ∧
      ¬ ((pretestLoop d e w fuel qr).2 < 2 ^ 64 ∧
        (pretestLoop d e w fuel qr).1 * e > (pretestLoop d e w fuel qr).2 * 2 ^ 64 + w) := by
  induction fuel generalizing qr with
  | zero => exact ⟨hr, fun hcond => by simp only [pretestLoop] at hcond; omega⟩
  | succ fuel ih =>
    unfold pretestLoop
    split
    · next hcond =>
      rw [Nat.succ_mul] at hfuel
      exact ih (qr := (qr.1 - 1, qr.2 + d)) (by simp only; omega) (by simp only; omega)
    · next hcond => exact ⟨hr, hcond⟩

end Sys2Proof.Machine
end

section
namespace Sys2Proof.Machine

/-- Settles O40: the top limb of the working value is at most the divisor's, and the estimate reaches `2^64` where they
are equal. -/
theorem clampedEstimateIsTheEstimate : Obligations.ClampedEstimateIsTheEstimate := by
  unfold Obligations.ClampedEstimateIsTheEstimate
  intro u v n j h
  by_cases heq : u.limb (j + n) = v.limb (n - 1)
  · obtain ⟨hge, hle⟩ := h.estimateRaw_of_top_eq heq
    refine ⟨iff_of_true hge heq, hle, ?_⟩
    rw [estimateClamped, if_pos heq, estimate, Nat.min_eq_right (by omega)]
  · have hlt := h.estimateRaw_of_top_ne heq
    refine ⟨iff_of_false (Nat.not_le.mpr hlt) heq, by omega, ?_⟩
    rw [estimateClamped, if_neg heq, estimate, Nat.min_eq_left (by omega)]

/-- Settles O41: no round takes the digit below the true one, and two rounds raise the partial remainder by
`2 v[n-1]`, which is `2^64` or more. -/
theorem pretestKeepsTheEstimateInBounds : Obligations.PretestKeepsTheEstimateInBounds := by
  unfold Obligations.PretestKeepsTheEstimateInBounds
  intro u v n j h h2
  obtain ⟨hge, hle⟩ := h.pretested_bounds h2
  have hr := h.partialRemainder_lt
  obtain ⟨_, _, htop, _⟩ := h
  exact ⟨hge, hle, pretestLoop_exit (v.limb (n - 1)).isLt 2 hr (by simp only; omega)⟩

end Sys2Proof.Machine
end

section
/-! Command words and DIVMOD, as equivalences: which word decodes (30_encoding.md R71, R72), when DIVMOD completes and
when it faults (10_state.md R35). -/

namespace Sys2Proof

/-- The decoder accepts the word of each command and no other (30_encoding.md R72). -/
theorem decode_eq_ok_iff {w : Word} {i : Instr} : decode w = .ok i ↔ w = encode i := by
  cases i
  constructor
  · intro h
    by_contra hne
    obtain ⟨e, he⟩ := decode_illegal (mt divmodFields_iff.mp hne)
    exact absurd (h.symm.trans he) (by simp)
  · exact fun h => decode_divmod (divmodFields_iff.mpr h)

end Sys2Proof

namespace Sys2Proof.Machine

variable {s t : State}

theorem OperandMarks.all_eq_false_iff (k : OperandMarks) :
    k.all = false ↔ ∃ i, i < 8 ∧ k.isWritten i = false := by
  rw [← Bool.not_eq_true, OperandMarks.all_iff]
  simp

@[simp] theorem State.writeResult_operandsReady (s : State) (x y : Nat) :
    (s.writeResult x y).operandsReady = s.operandsReady := rfl

theorem exec_divmod_unready (h : s.operandsReady = false) : exec .divmod s = .fault .unwrittenOperand := by
  simp [exec, execDivmod, h]

theorem exec_divmod_completes (hr : s.operandsReady = true) : ∃ t, exec .divmod s = .next t := by
  by_cases hv : s.b.val = 0
  · exact ⟨_, exec_divmod_zero hr hv⟩
  · exact ⟨_, exec_divmod_result hr hv⟩

theorem operandsReady_of_exec_divmod (h : exec .divmod s = .next t) : s.operandsReady = true := by
  by_contra hr
  rw [exec_divmod_unready (by simpa using hr)] at h
  exact absurd h (by simp)

/-- Where the operands are not ready, one of them is unwritten (10_state.md R35). -/
theorem written_all_of_unready (h : s.operandsReady = false) : s.written.all = false := by
  simp_all [State.operandsReady]

theorem isWritten_of_unreadable {i : Nat} (h : s.operandReadable i = false) : s.written.isWritten i = false := by
  simp_all [State.operandReadable]

theorem issueCommand_divmod (s : State) : issueCommand (encode .divmod) s = exec .divmod s :=
  issueCommand_ok (decode_eq_ok_iff.mpr rfl) s

/-- A command writes none of the operands, the parameters, the port and the replies (10_state.md R22, R23). -/
theorem issueCommand_frame {w : Word} (h : issueCommand w s = .next t) :
    t.a = s.a ∧ t.b = s.b ∧ t.written = s.written ∧ t.config = s.config ∧ t.port = s.port ∧
      t.responses = s.responses := by
  obtain ⟨_, _, rfl⟩ | ⟨_, _, _, rfl⟩ | ⟨_, _, _, _, _, rfl⟩ := issueCommand_next h <;> simp

/-- The one fault of a command is that of an unwritten operand: no division leaves a final borrow
(43_correction_refiner.md R177). -/
theorem issueCommand_fault {w : Word} {f : Fault} (h : issueCommand w s = .fault f) :
    decode w = .ok .divmod ∧ s.written.all = false ∧ f = .unwrittenOperand := by
  cases hd : decode w with
  | error e =>
    rw [issueCommand_error hd] at h
    exact absurd h (by simp)
  | ok i =>
    cases i
    rw [issueCommand_ok hd] at h
    cases hr : s.operandsReady with
    | true =>
      obtain ⟨t, ht⟩ := exec_divmod_completes hr
      exact absurd (ht.symm.trans h) (by simp)
    | false =>
      rw [exec_divmod_unready hr] at h
      exact ⟨rfl, written_all_of_unready hr, by simpa using h.symm⟩

end Sys2Proof.Machine
end

section
/-! What an access means, whoever makes it, and what a step can do and how it can fault, said once each. -/

namespace Sys2Proof.Machine

/-! ### The meaning of an access -/

/-- The meaning of access `a` in state `s`, the same for every host (60_exceptions.md R212): a register read, a register
write, an AccessError by its shape, or no access to the unit. -/
inductive AccessMeaning (a : Access) (s : State) : Prop where
  | read (idx : RegIndex) (form : Word → Reply)
      (hread : ∀ host, readIndex s.config (.access host a) = some idx)
      (hperform : ∀ host, performAccess host a s = readAccess host form idx s)
  | write (idx : RegIndex) (v : Word)
      (hread : ∀ host, readIndex s.config (.access host a) = none)
      (hwritten : ∀ host, writtenWord s.config (.access host a) = some (idx, v))
      (hperform : ∀ host, performAccess host a s = replyDone host (regWrite idx v s))
  | malformed (addr size : Nat)
      (hread : ∀ host, readIndex s.config (.access host a) = none)
      (hwritten : ∀ host, writtenWord s.config (.access host a) = none)
      (hperform : ∀ host, performAccess host a s = .fault (.accessError (.malformed addr size)))
  | outside (addr size : Nat)
      (hread : ∀ host, readIndex s.config (.access host a) = none)
      (hwritten : ∀ host, writtenWord s.config (.access host a) = none)
      (hperform : ∀ host, performAccess host a s = .refused (.outsideWindow addr size))

/-- Every access has a meaning: an access by index is its register's, and one by byte address is what `busTarget`
says. -/
theorem accessMeaning (a : Access) (s : State) : AccessMeaning a s := by
  cases a with
  | read idx => exact .read idx .data (fun _ => rfl) (fun _ => rfl)
  | write idx v => exact .write idx v (fun _ => rfl) (fun _ => rfl) (fun _ => rfl)
  | busRead addr size =>
    cases h : busTarget s.config addr size with
    | register idx =>
      exact .read idx (fun w => .bytes (bytesOfWord w)) (by simp [readIndex, h]) (by simp [performAccess, h])
    | malformed =>
      exact .malformed addr size (by simp [readIndex, h]) (by simp [writtenWord])
        (fun host => performAccess_busRead_malformed h)
    | outside =>
      exact .outside addr size (by simp [readIndex, h]) (by simp [writtenWord]) (by simp [performAccess, h])
  | busWrite addr data =>
    cases h : busTarget s.config addr data.length with
    | register idx =>
      exact .write idx (wordOfBytes data) (by simp [readIndex]) (by simp [writtenWord, h])
        (by simp [performAccess, writeAccess, h])
    | malformed =>
      exact .malformed addr data.length (by simp [readIndex]) (by simp [writtenWord, h])
        (fun host => performAccess_busWrite_malformed h)
    | outside =>
      exact .outside addr data.length (by simp [readIndex]) (by simp [writtenWord, h]) (by simp [performAccess, h])

/-! ### A step that completes -/

/-- What a completed step from `s` to `t` can have done. -/
inductive StepEffect (s t : State) : Prop where
  | idle (hport : s.port = []) (ht : t = s)
  | reset (rest : List Event) (hport : s.port = .reset :: rest) (ht : t = (s.setPort rest).resetUnit)
  | read (e : Event) (rest : List Event) (host : Nat) (reply : Reply) (hport : s.port = e :: rest)
      (ht : t = (s.setPort rest).respond host reply)
  | operandWrite (e : Event) (rest : List Event) (host : Nat) (idx : RegIndex) (v : Word) (hport : s.port = e :: rest)
      (hidx : idx.toNat < 8) (hwritten : writtenWord s.config e = some (idx, v))
      (ht : t = ((s.setPort rest).writeOperand idx.toNat v).respond host .done)
  | command (e : Event) (rest : List Event) (host : Nat) (w : Word) (t₀ : State) (hport : s.port = e :: rest)
      (hread : readIndex s.config e = none) (hwritten : writtenWord s.config e = some (cmdIndex, w))
      (hissue : issueCommand w (s.setPort rest) = .next t₀) (ht : t = t₀.respond host .done)

theorem eq_cmdIndex {idx : RegIndex} (h : idx.toNat = 16) : idx = cmdIndex := BitVec.eq_of_toNat_eq h

theorem stepEffect {s t : State} (h : step s = .next t) : StepEffect s t := by
  obtain ⟨hport, ht⟩ | ⟨rest, hport, ht⟩ | ⟨host, a, rest, hport, h⟩ := step_next h
  · exact .idle hport ht
  · exact .reset rest hport ht
  cases accessMeaning a (s.setPort rest) with
  | read idx form _ hperform =>
    rw [hperform] at h
    obtain ⟨w, _, ht⟩ := readAccess_next h
    exact .read _ rest host (form w) hport ht
  | write idx v hread hwritten hperform =>
    rw [hperform] at h
    obtain ⟨t₀, h₀, ht⟩ := replyDone_next h
    obtain ⟨hidx, rfl⟩ | ⟨hidx, hissue⟩ := regWrite_next h₀
    · exact .operandWrite _ rest host idx v hport hidx (hwritten host) ht
    · exact .command _ rest host v t₀ hport (hread host) (eq_cmdIndex hidx ▸ hwritten host) hissue ht
  | malformed _ _ _ _ hperform =>
    rw [hperform] at h
    exact absurd h (by simp)
  | outside _ _ _ _ hperform =>
    rw [hperform] at h
    exact absurd h (by simp)

/-- A register write gives no reply: the access does. -/
theorem regWrite_responses {s t : State} {idx : RegIndex} {v : Word} (h : regWrite idx v s = .next t) :
    t.responses = s.responses := by
  obtain ⟨_, rfl⟩ | ⟨_, hissue⟩ := regWrite_next h
  · exact s.writeOperand_responses _ _
  · obtain ⟨_, _, _, _, _, hresponses⟩ := issueCommand_frame hissue
    exact hresponses

/-! ### The use of an unwritten operand register -/

section Use

variable {s : State} {e : Event} {rest : List Event} {idx : RegIndex} {w : Word} (hport : s.port = e :: rest)
include hport

theorem unwrittenUse_of_read (hread : readIndex s.config e = some idx) :
    s.unwrittenUse =
      if idx.toNat < 8 ∧ s.written.isWritten idx.toNat = false then some (.register idx) else none := by
  simp [State.unwrittenUse, hport, unwrittenUseOf, hread]

theorem unwrittenUse_of_write (hread : readIndex s.config e = none)
    (hwritten : writtenWord s.config e = some (idx, w)) :
    s.unwrittenUse =
      if idx = cmdIndex ∧ decode w = .ok .divmod ∧ s.written.all = false then some .operand else none := by
  simp [State.unwrittenUse, hport, unwrittenUseOf, hread, hwritten]

theorem unwrittenUse_of_neither (hread : readIndex s.config e = none) (hwritten : writtenWord s.config e = none) :
    s.unwrittenUse = none := by
  simp [State.unwrittenUse, hport, unwrittenUseOf, hread, hwritten]

end Use

/-- A step that uses an unwritten operand register reads it, or is a DIVMOD. -/
theorem step_of_unwrittenUse {s : State} {use : UnwrittenUse} (h : s.unwrittenUse = some use) :
    (∃ idx host form rest, use = .register idx ∧ idx.toNat < 8 ∧ s.written.isWritten idx.toNat = false ∧
      step s = readAccess host form idx (s.setPort rest)) ∨
    (∃ host rest, use = .operand ∧ s.written.all = false ∧
      step s = replyDone host (exec .divmod (s.setPort rest))) := by
  cases hport : s.port with
  | nil => simp [State.unwrittenUse, hport] at h
  | cons e rest =>
    cases e with
    | reset => exact absurd ((unwrittenUse_of_neither hport rfl rfl).symm.trans h) (by simp)
    | access host a =>
      cases accessMeaning a (s.setPort rest) with
      | read idx form hread hperform =>
        rw [unwrittenUse_of_read hport (hread host)] at h
        obtain ⟨⟨hidx, hmark⟩, rfl⟩ : (idx.toNat < 8 ∧ s.written.isWritten idx.toNat = false) ∧
            UnwrittenUse.register idx = use := by simpa using h
        exact .inl ⟨idx, host, form, rest, rfl, hidx, hmark, by rw [step_access hport, hperform]⟩
      | write idx w hread hwritten hperform =>
        rw [unwrittenUse_of_write hport (hread host) (hwritten host)] at h
        obtain ⟨⟨rfl, hdecode, hmark⟩, rfl⟩ : (idx = cmdIndex ∧ decode w = .ok .divmod ∧ s.written.all = false) ∧
            UnwrittenUse.operand = use := by simpa using h
        refine .inr ⟨host, rest, rfl, hmark, ?_⟩
        rw [step_access hport, hperform, regWrite_command rfl, issueCommand_ok hdecode]
      | malformed _ _ hread hwritten _ =>
        exact absurd ((unwrittenUse_of_neither hport (hread host) (hwritten host)).symm.trans h) (by simp)
      | outside _ _ hread hwritten _ =>
        exact absurd ((unwrittenUse_of_neither hport (hread host) (hwritten host)).symm.trans h) (by simp)

/-! ### A step that faults -/

theorem regRead_fault {s : State} {idx : RegIndex} {f : Fault} (h : regRead s idx = .error f) :
    (∃ c, f = .accessError c) ∨ f = .resultNotValid idx ∨
      (idx.toNat < 8 ∧ s.written.isWritten idx.toNat = false ∧ f = .unwrittenRegister idx) := by
  by_cases h8 : idx.toNat < 8
  · rw [regRead_operand s h8] at h
    cases hr : s.operandReadable idx.toNat with
    | true => simp [hr] at h
    | false => exact .inr (.inr ⟨h8, isWritten_of_unreadable hr, by simpa [hr] using h.symm⟩)
  · by_cases h16 : idx.toNat < 16
    · rw [regRead_result s (Nat.not_lt.mp h8) h16] at h
      cases hr : s.resultReadable with
      | true => simp [hr] at h
      | false => exact .inr (.inl (by simpa [hr] using h.symm))
    · by_cases h17 : idx.toNat = 17
      · simp [regRead, h17] at h
      · rw [regRead_denied (Nat.not_lt.mp h16) h17] at h
        exact .inl ⟨_, by simpa using h.symm⟩

theorem regWrite_fault {s : State} {idx : RegIndex} {v : Word} {f : Fault} (h : regWrite idx v s = .fault f) :
    (∃ c, f = .accessError c) ∨
      (idx = cmdIndex ∧ decode v = .ok .divmod ∧ s.written.all = false ∧ f = .unwrittenOperand) := by
  by_cases h8 : idx.toNat < 8
  · rw [regWrite_operand h8] at h
    exact absurd h (by simp)
  · by_cases h16 : idx.toNat = 16
    · rw [regWrite_command h16] at h
      exact .inr ⟨eq_cmdIndex h16, issueCommand_fault h⟩
    · rw [regWrite_denied (Nat.not_lt.mp h8) h16] at h
      exact .inl ⟨_, by simpa using h.symm⟩

theorem readAccess_fault {s : State} {host : Nat} {form : Word → Reply} {idx : RegIndex} {f : Fault}
    (h : readAccess host form idx s = .fault f) : regRead s idx = .error f := by
  cases hr : regRead s idx with
  | ok w => simp [readAccess_ok hr] at h
  | error g => simpa [readAccess_error hr] using h

theorem replyDone_fault {host : Nat} {o : Host.Outcome State Fault Refusal} {f : Fault}
    (h : replyDone host o = .fault f) : o = .fault f := by
  cases o <;> simp_all [replyDone]

theorem step_fault_access {s : State} {f : Fault} (h : step s = .fault f) :
    ∃ host a rest, s.port = .access host a :: rest ∧ performAccess host a (s.setPort rest) = .fault f := by
  cases hport : s.port with
  | nil => simp [step, portStep, hport] at h
  | cons e rest =>
    cases e with
    | reset => simp [step_reset hport] at h
    | access host a => exact ⟨host, a, rest, rfl, (step_access hport).symm.trans h⟩

/-- The faults of a step: no right or no register, a result that is not there, or the use of an unwritten operand
register. -/
theorem step_fault {s : State} {f : Fault} (h : step s = .fault f) :
    (∃ c, f = .accessError c) ∨ (∃ idx, f = .resultNotValid idx) ∨
      (∃ idx, f = .unwrittenRegister idx ∧ s.unwrittenUse = some (.register idx)) ∨
      (f = .unwrittenOperand ∧ s.unwrittenUse = some .operand) := by
  obtain ⟨host, a, rest, hport, h⟩ := step_fault_access h
  cases accessMeaning a (s.setPort rest) with
  | read idx form hread hperform =>
    rw [hperform] at h
    obtain hc | hv | ⟨h8, hmark, rfl⟩ := regRead_fault (readAccess_fault h)
    · exact .inl hc
    · exact .inr (.inl ⟨idx, hv⟩)
    · refine .inr (.inr (.inl ⟨idx, rfl, ?_⟩))
      rw [unwrittenUse_of_read hport (hread host)]
      exact if_pos ⟨h8, hmark⟩
  | write idx v hread hwritten hperform =>
    rw [hperform] at h
    obtain hc | ⟨hidx, hdecode, hmark, rfl⟩ := regWrite_fault (replyDone_fault h)
    · exact .inl hc
    · refine .inr (.inr (.inr ⟨rfl, ?_⟩))
      rw [unwrittenUse_of_write hport (hread host) (hwritten host)]
      exact if_pos ⟨hidx, hdecode, hmark⟩
  | malformed addr size _ _ hperform =>
    rw [hperform] at h
    exact .inl ⟨_, by simpa using h.symm⟩
  | outside _ _ _ _ hperform =>
    rw [hperform] at h
    exact absurd h (by simp)

end Sys2Proof.Machine
end

section
/-! The invariants of the machine (10_state.md R24, R29, 70_reset_and_hazards.md R236): what they look at, and how each
outcome of a command keeps them. -/

namespace Sys2Proof.Machine

variable {s t : State}

theorem statusLegal_afterIllegalCommand {w : Word} (h : statusLegal w = true) :
    statusLegal (statusAfterIllegalCommand w) = true := by
  simp only [statusLegal, Bool.and_eq_true] at h
  obtain ⟨_, hboth⟩ := h
  rw [statusAfterIllegalCommand, statusLegal_statusWord, hboth]

@[simp] theorem statusLegal_afterResult : statusLegal statusAfterResult = true := by simp [statusAfterResult]

@[simp] theorem statusLegal_afterDivisionByZero : statusLegal statusAfterDivisionByZero = true := by
  simp [statusAfterDivisionByZero]

@[simp] theorem statusIllcmd_afterResult : statusIllcmd statusAfterResult = false := by simp [statusAfterResult]

/-- The invariant looks at STATUS, Q and RM alone. -/
theorem Inv.congr (h : Inv s) (hstatus : t.status = s.status) (hq : t.q = s.q) (hrm : t.rm = s.rm) : Inv t := by
  simpa [Inv, HoldsResult, hstatus, hq, hrm] using h

theorem inv_resetUnit (s : State) : Inv s.resetUnit :=
  ⟨(by decide : statusLegal 0 = true), fun h => absurd h (by decide : ¬ statusValid 0 = true)⟩

/-- A division leaves its quotient and its remainder. -/
theorem inv_writeResult {D V : Uint256} (hV : V.val ≠ 0) : Inv (s.writeResult (D.val / V.val) (D.val % V.val)) := by
  have hpos : 0 < V.val := Nat.pos_of_ne_zero hV
  refine ⟨statusLegal_afterResult, fun _ => ⟨D.val, V.val, D.val_lt, V.val_lt, hpos, ?_, ?_⟩⟩
  · exact Uint256.val_ofNat (Nat.lt_of_le_of_lt (Nat.div_le_self _ _) D.val_lt)
  · exact Uint256.val_ofNat ((Nat.mod_lt _ hpos).trans V.val_lt)

theorem inv_issueCommand {w : Word} (hinv : Inv s) (h : issueCommand w s = .next t) : Inv t := by
  obtain ⟨hlegal, hresult⟩ := hinv
  obtain ⟨_, _, rfl⟩ | ⟨_, _, _, rfl⟩ | ⟨_, _, hV, res, hres, rfl⟩ := issueCommand_next h
  · exact ⟨statusLegal_afterIllegalCommand hlegal, fun hvalid => hresult (by simpa using hvalid)⟩
  · exact ⟨statusLegal_afterDivisionByZero, fun hvalid => absurd hvalid (by simp)⟩
  · obtain ⟨res', hres', hq, hrem⟩ := divide_divides s.config.pretest s.a s.datapath hV
    obtain rfl : res = res' := Option.some.inj (hres.symm.trans hres')
    rw [hq, hrem]
    exact inv_writeResult hV

theorem outcomeFromWritten_of_all (h : s.written.all = true) : OutcomeFromWritten s := fun _ => h

/-- The invariant stays when VALID and DBZ do and no register loses its mark. -/
theorem OutcomeFromWritten.congr (h : OutcomeFromWritten s) (hvalid : statusValid t.status = statusValid s.status)
    (hdbz : statusDbz t.status = statusDbz s.status) (hwritten : s.written.all = true → t.written.all = true) :
    OutcomeFromWritten t := by
  intro hout
  rw [hvalid, hdbz] at hout
  exact hwritten (h hout)

theorem outcomeFromWritten_resetUnit (s : State) : OutcomeFromWritten s.resetUnit := fun h =>
  absurd h (by decide : ¬ (statusValid 0 = true ∨ statusDbz 0 = true))

/-- A command keeps the invariant unless it is a DIVMOD on operands that are not all written. -/
theorem outcomeFromWritten_issueCommand {w : Word} (hinv : OutcomeFromWritten s) (h : issueCommand w s = .next t)
    (hready : decode w = .ok .divmod → s.operandsReady = true → s.written.all = true) : OutcomeFromWritten t := by
  obtain ⟨_, _, rfl⟩ | ⟨hw, hr, _, rfl⟩ | ⟨hw, hr, _, _, _, rfl⟩ := issueCommand_next h
  · exact hinv.congr (by simp) (by simp) id
  · exact outcomeFromWritten_of_all (hready hw hr)
  · exact outcomeFromWritten_of_all (hready hw hr)

end Sys2Proof.Machine
end

section
namespace Sys2Proof.Machine

/-- Settles O48: only a command or reset changes what the invariant looks at, and each outcome of a command keeps it. -/
theorem everyStepKeepsTheMachineInvariant : Obligations.EveryStepKeepsTheMachineInvariant := by
  unfold Obligations.EveryStepKeepsTheMachineInvariant
  intro s t hinv hstep
  cases stepEffect hstep with
  | idle _ ht => exact ht ▸ hinv
  | reset rest _ ht => exact ht ▸ inv_resetUnit _
  | read e rest host reply _ ht =>
    subst ht
    exact hinv.congr rfl rfl rfl
  | operandWrite e rest host idx v _ _ _ ht =>
    subst ht
    exact hinv.congr (by simp) (by simp) (by simp)
  | command e rest host w t₀ _ _ _ hissue ht =>
    subst ht
    have hinv₀ : Inv (s.setPort rest) := hinv.congr rfl rfl rfl
    exact (inv_issueCommand hinv₀ hissue).congr rfl rfl rfl

/-- Settles O49: reset clears VALID and DBZ. -/
theorem machineInvariantHoldsAtReset : Obligations.MachineInvariantHoldsAtReset := by
  unfold Obligations.MachineInvariantHoldsAtReset
  exact ⟨⟨inv_resetUnit State.reset, outcomeFromWritten_resetUnit State.reset⟩,
    fun s => ⟨inv_resetUnit s, outcomeFromWritten_resetUnit s⟩⟩

/-- Settles O55: a DIVMOD that completes without a use of an unwritten operand has all of them written, by
`unwrittenUse` or by its own check. -/
theorem stepsOnWrittenOperandsKeepTheOutcomeWritten : Obligations.StepsOnWrittenOperandsKeepTheOutcomeWritten := by
  unfold Obligations.StepsOnWrittenOperandsKeepTheOutcomeWritten
  intro s t huse hinv hstep
  cases stepEffect hstep with
  | idle _ ht => exact ht ▸ hinv
  | reset rest _ ht => exact ht ▸ outcomeFromWritten_resetUnit _
  | read e rest host reply _ ht =>
    subst ht
    exact hinv.congr rfl rfl id
  | operandWrite e rest host idx v _ _ _ ht =>
    subst ht
    exact hinv.congr (by simp) (by simp) (by simpa using OperandMarks.all_mark idx.toNat)
  | command e rest host w t₀ hport hread hwritten hissue ht =>
    subst ht
    have hinv₀ : OutcomeFromWritten (s.setPort rest) := hinv.congr rfl rfl id
    have hready : decode w = .ok .divmod → (s.setPort rest).operandsReady = true → s.written.all = true := by
      intro hw hr
      obtain hnone | hfault := huse
      · rw [unwrittenUse_of_write hport hread hwritten] at hnone
        simpa [hw] using hnone
      · obtain ⟨_, hops, _⟩ := State.ready_of_fault (s := s.setPort rest) hfault
        exact hops.symm.trans hr
    exact (outcomeFromWritten_issueCommand hinv₀ hissue hready).congr rfl rfl id

/-- Settles O8: every effect of a step takes one event, and none but a reply adds to the replies. -/
theorem stepTakesExactlyTheNextEvent : Obligations.StepTakesExactlyTheNextEvent := by
  unfold Obligations.StepTakesExactlyTheNextEvent
  intro s t hstep
  cases stepEffect hstep with
  | idle hport ht => simp [ht, hport]
  | reset rest hport ht => simp [ht, hport]
  | read e rest host reply hport ht => simp [ht, hport]
  | operandWrite e rest host idx v hport _ _ ht => simp [ht, hport]
  | command e rest host w t₀ hport _ _ hissue ht =>
    obtain ⟨_, _, _, hconfig, hport₀, hresponses⟩ := issueCommand_frame hissue
    simp [ht, hport, hconfig, hport₀, hresponses]

/-- Settles O50: of the effects of a step only a command and reset write STATUS, Q, RM or the internal state. -/
theorem onlyCommandWritesChangeResults : Obligations.OnlyCommandWritesChangeResults := by
  unfold Obligations.OnlyCommandWritesChangeResults
  intro s t hstep hother
  cases stepEffect hstep with
  | idle _ ht => simp [ht]
  | reset rest hport _ => exact absurd (hother _ _ hport) (by simp [changesResults])
  | read e rest host reply _ ht => simp [ht]
  | operandWrite e rest host idx v _ _ _ ht => simp [ht]
  | command e rest host w t₀ hport _ hwritten _ _ =>
    exact absurd (hother _ _ hport) (by simp [changesResults, writtenIndex, hwritten])

/-- Settles O51: of the effects of a step only an operand write and reset write A, B or their marks. -/
theorem onlyOperandWritesChangeOperands : Obligations.OnlyOperandWritesChangeOperands := by
  unfold Obligations.OnlyOperandWritesChangeOperands
  intro s t hstep hother
  cases stepEffect hstep with
  | idle _ ht => simp [ht]
  | reset rest hport _ => exact absurd (hother _ _ hport) (by simp [changesOperands])
  | read e rest host reply _ ht => simp [ht]
  | operandWrite e rest host idx v hport hidx hwritten _ =>
    exact absurd (hother _ _ hport) (by simp [changesOperands, writtenIndex, hwritten, hidx])
  | command e rest host w t₀ _ _ _ hissue ht =>
    obtain ⟨ha, hb, hmarks, _⟩ := issueCommand_frame hissue
    simp [ht, ha, hb, hmarks]

/-- Settles O47: InternalBorrow is none of the faults of a step. -/
theorem noStepRaisesInternalBorrow : Obligations.NoStepRaisesInternalBorrow := by
  unfold Obligations.NoStepRaisesInternalBorrow
  intro s h
  obtain ⟨_, hf⟩ | ⟨_, hf⟩ | ⟨_, hf, _⟩ | ⟨hf, _⟩ := step_fault h <;> exact Fault.noConfusion hf

/-- Settles O27: the three outcomes of a command that completes, each with its word, its divisor and its STATUS. -/
theorem statusFollowsTheCommandTable : Obligations.StatusFollowsTheCommandTable := by
  unfold Obligations.StatusFollowsTheCommandTable
  intro s t w h
  have hdivmod : decode w = .ok .divmod ↔ w = 0x0000000000000001 := decode_eq_ok_iff
  obtain ⟨e, hw, rfl⟩ | ⟨hw, _, hV, rfl⟩ | ⟨hw, _, hV, res, _, rfl⟩ := issueCommand_next h
  · have hne : w ≠ 0x0000000000000001 := fun h1 => absurd ((hdivmod.mpr h1).symm.trans hw) (by simp)
    exact ⟨fun h1 => absurd h1 hne, fun h1 => absurd h1 hne, fun _ => by simp, statusLegal_afterIllegalCommand,
      fun ⟨hdbz, _⟩ => ⟨hne, by simpa using hdbz⟩⟩
  · simp [hdivmod.mp hw, hV]
  · simp [hdivmod.mp hw, hV]

/-- Settles O29: the first DIVMOD leaves the operands and their marks, so that the second computes the same pair. -/
theorem secondDivmodRepeatsTheFirst : Obligations.SecondDivmodRepeatsTheFirst := by
  unfold Obligations.SecondDivmodRepeatsTheFirst
  intro s t hV h
  have hr := operandsReady_of_exec_divmod h
  have ht : t = s.writeResult (s.a.val / s.b.val) (s.a.val % s.b.val) :=
    Host.Outcome.next.inj (h.symm.trans (exec_divmod_result hr hV))
  have ha : t.a = s.a := by rw [ht, State.writeResult_a]
  have hb : t.b = s.b := by rw [ht, State.writeResult_b]
  have hr' : t.operandsReady = true := by rw [ht, State.writeResult_operandsReady, hr]
  refine ⟨_, exec_divmod_result hr' (hb ▸ hV), ?_⟩
  rw [ha, hb, State.writeResult_q, State.writeResult_rm, State.writeResult_status]
  rw [ht, State.writeResult_q, State.writeResult_rm, State.writeResult_status]
  exact ⟨rfl, rfl, rfl⟩

/-- Settles O21: the meaning of an access is the same for every host, and a register write leaves the replies. -/
theorem hostIdentityNeverMatters : Obligations.HostIdentityNeverMatters := by
  unfold Obligations.HostIdentityNeverMatters
  intro h h' a s
  cases accessMeaning a s with
  | read idx form _ hperform =>
    rw [hperform, hperform]
    cases hr : regRead s idx with
    | ok w =>
      rw [readAccess_ok hr, readAccess_ok hr]
      refine ⟨fun t ht => ?_, by simp, by simp⟩
      obtain rfl := Host.Outcome.next.inj ht
      exact ⟨form w, rfl, rfl⟩
    | error f =>
      rw [readAccess_error hr, readAccess_error hr]
      simp
  | write idx v _ _ hperform =>
    rw [hperform, hperform]
    cases hw : regWrite idx v s with
    | next t₀ =>
      refine ⟨fun t ht => ?_, by simp [replyDone], by simp [replyDone]⟩
      obtain rfl : t₀.respond h .done = t := Host.Outcome.next.inj ht
      have hresponses := regWrite_responses hw
      refine ⟨.done, by rw [State.respond_responses, hresponses], ?_⟩
      rw [← hresponses]
      rfl
    | fault f => simp [replyDone]
    | refused r => simp [replyDone]
  | malformed _ _ _ _ hperform => simp [hperform]
  | outside _ _ _ _ hperform => simp [hperform]

end Sys2Proof.Machine
end

section
/-! The use of unwritten operand registers (10_state.md R35): which accesses make it, and what becomes of a step that
does. -/

namespace Sys2Proof.Machine

variable {s : State}

/-- The aligned eight bytes at `DIV_BASE + 128` are CMD (10_state.md R26, 20_memory.md R51). -/
theorem busTarget_command (c : Config) : busTarget c (c.divBase + 128) 8 = .register cmdIndex :=
  busTarget_register c cmdIndex

theorem unwrittenUse_of_registerRead {host : Nat} {idx : RegIndex} {rest : List Event}
    (hport : s.port = .access host (.read idx) :: rest ∨
      s.port = .access host (.busRead (s.config.divBase + 8 * idx.toNat) 8) :: rest) :
    s.unwrittenUse =
      if idx.toNat < 8 ∧ s.written.isWritten idx.toNat = false then some (.register idx) else none := by
  obtain hport | hport := hport
  · exact unwrittenUse_of_read hport rfl
  · exact unwrittenUse_of_read hport (by simp [readIndex, busTarget_register])

theorem unwrittenUse_of_commandWrite {host : Nat} {w : Word} {rest : List Event}
    (hport : s.port = .access host (.write cmdIndex w) :: rest ∨
      s.port = .access host (.busWrite (s.config.divBase + 128) (bytesOfWord w)) :: rest) :
    s.unwrittenUse = if w = encode .divmod ∧ s.written.all = false then some .operand else none := by
  obtain hport | hport := hport
  · simpa [decode_eq_ok_iff] using unwrittenUse_of_write hport rfl rfl
  · have hwritten : writtenWord s.config (.access host (.busWrite (s.config.divBase + 128) (bytesOfWord w))) =
        some (cmdIndex, w) := by simp [writtenWord, busTarget_command]
    simpa [decode_eq_ok_iff] using unwrittenUse_of_write hport rfl hwritten

/-- Where unspecified values fault, a read of an unwritten operand register is UnwrittenRegister (10_state.md R35). -/
theorem regRead_unwritten {idx : RegIndex} (hfault : s.config.onUnspecified = .fault) (hidx : idx.toNat < 8)
    (hmark : s.written.isWritten idx.toNat = false) : regRead s idx = .error (.unwrittenRegister idx) := by
  obtain ⟨hreadable, _⟩ := State.ready_of_fault hfault
  simp [regRead_operand s hidx, hreadable, hmark]

/-- Where they fault, a DIVMOD with an unwritten operand register is UnwrittenOperand (10_state.md R35). -/
theorem exec_divmod_unwritten (hfault : s.config.onUnspecified = .fault) (hmark : s.written.all = false) :
    exec .divmod s = .fault .unwrittenOperand := by
  obtain ⟨_, hready, _⟩ := State.ready_of_fault hfault
  exact exec_divmod_unready (hready.trans hmark)

theorem step_of_registerUse {idx : RegIndex} (hfault : s.config.onUnspecified = .fault)
    (h : s.unwrittenUse = some (.register idx)) : step s = .fault (.unwrittenRegister idx) := by
  obtain ⟨idx', host, form, rest, heq, hidx, hmark, hstep⟩ | ⟨_, _, heq, _⟩ := step_of_unwrittenUse h
  · obtain rfl := UnwrittenUse.register.inj heq
    exact hstep.trans (readAccess_error (regRead_unwritten hfault hidx hmark))
  · exact absurd heq (by simp)

theorem step_of_operandUse (hfault : s.config.onUnspecified = .fault) (h : s.unwrittenUse = some .operand) :
    step s = .fault .unwrittenOperand := by
  obtain ⟨_, _, _, _, heq, _⟩ | ⟨host, rest, _, hmark, hstep⟩ := step_of_unwrittenUse h
  · exact absurd heq (by simp)
  · rw [hstep, exec_divmod_unwritten (s := s.setPort rest) hfault hmark]
    rfl

/-- Where they are used as the hardware uses them, such a step completes. -/
theorem step_of_use_goOn (hgoOn : s.config.onUnspecified = .goOn) (h : s.unwrittenUse ≠ none) :
    ∃ t, step s = .next t := by
  obtain ⟨use, huse⟩ := Option.ne_none_iff_exists'.mp h
  obtain ⟨idx, host, form, rest, _, hidx, _, hstep⟩ | ⟨host, rest, _, _, hstep⟩ := step_of_unwrittenUse huse
  · obtain ⟨hreadable, _⟩ := State.ready_of_goOn (s := s.setPort rest) hgoOn
    have hread : regRead (s.setPort rest) idx = .ok (s.cell idx.toNat) := by
      rw [regRead_operand _ hidx, if_pos (hreadable _), State.cell_setPort]
    exact ⟨_, hstep.trans (readAccess_ok hread)⟩
  · obtain ⟨_, hready, _⟩ := State.ready_of_goOn (s := s.setPort rest) hgoOn
    obtain ⟨t, ht⟩ := exec_divmod_completes hready
    exact ⟨t.respond host .done, by rw [hstep, ht]; rfl⟩

end Sys2Proof.Machine
end

section
namespace Sys2Proof.Machine

/-- Settles O22: `unwrittenUse` names the read or the DIVMOD that `step` makes; such a step is the fault of its use or
completes, as the configuration says, and no other step has one of these two faults. -/
theorem unwrittenOperandsFaultExactlyWhereAsked : Obligations.UnwrittenOperandsFaultExactlyWhereAsked := by
  unfold Obligations.UnwrittenOperandsFaultExactlyWhereAsked
  refine fun s => ⟨fun hfault => ⟨fun idx => regRead_unwritten hfault, ?unwrittenDivmod, ?writtenDivmod,
    fun idx => ⟨?isRegisterUse, step_of_registerUse hfault⟩, ?isOperandUse, step_of_operandUse hfault⟩,
    fun hgoOn => ⟨?goOnRead, ?goOnDivmod, step_of_use_goOn hgoOn⟩, fun host idx rest => unwrittenUse_of_registerRead,
    ?commandUse⟩
  case unwrittenDivmod =>
    exact fun hmark => exec_divmod_unwritten hfault (s.written.all_eq_false_iff.mpr hmark)
  case writtenDivmod =>
    intro hmarks
    obtain ⟨_, hready, _⟩ := State.ready_of_fault hfault
    exact exec_divmod_completes (hready.trans (s.written.all_iff.mpr hmarks))
  case isRegisterUse =>
    intro hstep
    obtain ⟨_, hf⟩ | ⟨_, hf⟩ | ⟨idx', hf, huse⟩ | ⟨hf, _⟩ := step_fault hstep
    · exact Fault.noConfusion hf
    · exact Fault.noConfusion hf
    · obtain rfl := Fault.unwrittenRegister.inj hf
      exact huse
    · exact Fault.noConfusion hf
  case isOperandUse =>
    intro hstep
    obtain ⟨_, hf⟩ | ⟨_, hf⟩ | ⟨_, hf, _⟩ | ⟨_, huse⟩ := step_fault hstep
    · exact Fault.noConfusion hf
    · exact Fault.noConfusion hf
    · exact Fault.noConfusion hf
    · exact huse
  case goOnRead =>
    intro idx hidx
    obtain ⟨hreadable, _⟩ := State.ready_of_goOn hgoOn
    rw [regRead_operand s hidx, if_pos (hreadable _)]
  case goOnDivmod =>
    obtain ⟨_, hready, _⟩ := State.ready_of_goOn hgoOn
    exact exec_divmod_completes hready
  case commandUse =>
    intro host w rest hport
    have hword : encode .divmod = (0x0000000000000001 : Word) := by decide
    rw [unwrittenUse_of_commandWrite hport, hword, ← s.written.all_eq_false_iff]
    split <;> simp_all

end Sys2Proof.Machine
end

section
/-! LD256 (30_encoding.md R79): what a list of its limb writes loads, in the order of the list. -/

namespace Sys2Proof.Machine

/-- The write of limb `k` of `x` to its register in group `g` (30_encoding.md R79). -/
def limbWrite (g : Group) (x k : Nat) : Access := .write (limbIndex g k) (limbOfNat x k)

theorem ld256_eq_map (g : Group) (x : Nat) : ld256 g x = [0, 1, 2, 3].map (limbWrite g x) := rfl

/-- The writes of LD256 in another order are the writes of the four limb numbers in another order. -/
theorem exists_limbs_of_perm_ld256 {g : Group} {x : Nat} {l : List Access} (h : l.Perm (ld256 g x)) :
    ∃ ks : List Nat, l = ks.map (limbWrite g x) ∧ ks.Perm [0, 1, 2, 3] := by
  have hcomp := congrFun₂ (List.eq_map_comp_perm (limbWrite g x)) l [0, 1, 2, 3]
  exact hcomp.mpr h

/-- `t` is `s` with the limbs `ks` of `x` written to their registers in group `g`. -/
structure LimbsLoaded (g : Group) (x : Nat) (ks : List Nat) (s t : State) : Prop where
  cell : ∀ i, t.cell i = if i ∈ ks.map (groupBase g + ·) then limbOfNat x (i - groupBase g) else s.cell i
  written : ∀ i, t.written.isWritten i = (decide (i ∈ ks.map (groupBase g + ·)) || s.written.isWritten i)
  q : t.q = s.q
  rm : t.rm = s.rm
  status : t.status = s.status

theorem run_succ_of_step {s t : State} (h : step s = .next t) (k : Nat) :
    Host.Core.run core (k + 1) s = Host.Core.run core k t := by
  have hstep : core.step s = .next t := h
  simp [Host.Core.run, hstep]

variable {g : Group} {x k host : Nat} {s t : State} {rest : List Event} {ks : List Nat}

theorem operandGroup_base (hg : g.isOperand = true) : groupBase g ≤ 4 := by
  cases g <;> simp_all [Group.isOperand, groupBase]

theorem limbIndex_toNat (hg : g.isOperand = true) (hk : k < 4) : (limbIndex g k).toNat = groupBase g + k := by
  have := operandGroup_base hg
  rw [limbIndex, BitVec.toNat_ofNat, Nat.mod_eq_of_lt (by omega)]

theorem step_limbWrite (hg : g.isOperand = true) (hk : k < 4)
    (hport : s.port = .access host (limbWrite g x k) :: rest) :
    step s = .next (((s.setPort rest).writeOperand (groupBase g + k) (limbOfNat x k)).respond host .done) := by
  have hbase := operandGroup_base hg
  have hindex := limbIndex_toNat hg hk
  rw [step_write hport, regWrite_operand (by omega), hindex]
  rfl

/-- One limb more at the front of the list. -/
theorem LimbsLoaded.cons (hg : g.isOperand = true) (hk : k < 4)
    (h : LimbsLoaded g x ks
      (((s.setPort rest).writeOperand (groupBase g + k) (limbOfNat x k)).respond host .done) t) :
    LimbsLoaded g x (k :: ks) s t := by
  have hbase := operandGroup_base hg
  have h8 : groupBase g + k < 8 := by omega
  refine ⟨fun i => ?_, fun i => ?_, by simpa using h.q, by simpa using h.rm, by simpa using h.status⟩
  · rw [h.cell, State.cell_respond, State.cell_writeOperand _ h8, State.cell_setPort]
    by_cases hi : i = groupBase g + k
    · simp [hi]
    · simp [hi]
  · rw [h.written, State.respond_written, State.writeOperand_written, OperandMarks.isWritten_mark,
      State.setPort_written]
    by_cases hi : i = groupBase g + k
    · simp [hi, h8]
    · simp [hi]

/-- The limb writes of a list, one step each, load the limbs of the list. -/
theorem run_limbWrites (hg : g.isOperand = true) (hks : ∀ k ∈ ks, k < 4)
    (hport : s.port = issueBy host (ks.map (limbWrite g x)) ++ rest) :
    ∃ t, Host.Core.run core ks.length s = .next t ∧ t.port = rest ∧ LimbsLoaded g x ks s t := by
  induction ks generalizing s with
  | nil => exact ⟨s, rfl, hport, by constructor <;> simp⟩
  | cons k ks ih =>
    have hk : k < 4 := hks k List.mem_cons_self
    have hstep := step_limbWrite hg hk (rest := issueBy host (ks.map (limbWrite g x)) ++ rest) hport
    obtain ⟨t, hrun, hrest, hloaded⟩ := ih (fun k' hk' => hks k' (List.mem_cons_of_mem k hk'))
      (s := ((s.setPort (issueBy host (ks.map (limbWrite g x)) ++ rest)).writeOperand (groupBase g + k)
        (limbOfNat x k)).respond host .done) (by simp)
    exact ⟨t, (run_succ_of_step hstep _).trans hrun, hrest, hloaded.cons hg hk⟩

/-- The registers of the four limbs are those of the group. -/
theorem mem_groupRegisters (base i : Nat) : i ∈ [0, 1, 2, 3].map (base + ·) ↔ base ≤ i ∧ i < base + 4 := by
  simp
  omega

/-- LD256, in any order of its four writes: the four registers of the group hold the limbs of the immediate and are
marked written, and every other register is as it was. -/
theorem run_ld256 (hg : g.isOperand = true) {l : List Access} (hl : l.Perm (ld256 g x))
    (hport : s.port = issueBy host l ++ rest) :
    ∃ t, Host.Core.run core 4 s = .next t ∧ t.port = rest ∧ LimbsLoaded g x [0, 1, 2, 3] s t := by
  obtain ⟨ks, rfl, hks⟩ := exists_limbs_of_perm_ld256 hl
  have hlt : ∀ k ∈ ks, k < 4 := fun k hk => by
    have := hks.mem_iff.mp hk
    simp at this
    omega
  obtain ⟨t, hrun, hrest, hloaded⟩ := run_limbWrites hg hlt hport
  rw [hks.length_eq] at hrun
  have hmem (i : Nat) : i ∈ ks.map (groupBase g + ·) ↔ i ∈ [0, 1, 2, 3].map (groupBase g + ·) :=
    (hks.map _).mem_iff
  refine ⟨t, hrun, hrest, ⟨fun i => ?_, fun i => ?_, hloaded.q, hloaded.rm, hloaded.status⟩⟩
  · simp only [hloaded.cell i, hmem]
  · simp only [hloaded.written i, hmem]

/-- The four registers of a loaded group hold the limbs of the immediate. -/
theorem LimbsLoaded.val_eq {y : Uint256} (h : LimbsLoaded g x [0, 1, 2, 3] s t) (hx : x < 2 ^ 256)
    (hcell : ∀ k, k < 4 → t.cell (groupBase g + k) = y.limb k) : y.val = x := by
  have hy : y = Uint256.ofNat x := Uint256.ext_limb fun k hk => by
    rw [← hcell k hk, h.cell, if_pos ((mem_groupRegisters _ _).mpr (by omega)), Nat.add_sub_cancel_left,
      Uint256.limb_ofNat x hk]
    rfl
  rw [hy, Uint256.val_ofNat hx]

/-- Every register outside the group is as it was. -/
theorem LimbsLoaded.limbs_eq {y z : Uint256} {base : Nat} (h : LimbsLoaded g x [0, 1, 2, 3] s t)
    (hbase : base + 4 ≤ groupBase g ∨ groupBase g + 4 ≤ base)
    (ht : ∀ k, k < 4 → t.cell (base + k) = y.limb k) (hs : ∀ k, k < 4 → s.cell (base + k) = z.limb k) : y = z :=
  Uint256.ext_limb fun k hk => by
    rw [← ht k hk, ← hs k hk, h.cell, if_neg (mt (mem_groupRegisters _ _).mp (by omega))]

theorem LimbsLoaded.isWritten_eq (h : LimbsLoaded g x [0, 1, 2, 3] s t) (i : Nat) :
    t.written.isWritten i =
      ((decide (groupBase g ≤ i) && decide (i < groupBase g + 4)) || s.written.isWritten i) := by
  rw [h.written]
  simp only [mem_groupRegisters, Bool.decide_and]

end Sys2Proof.Machine
end

section
namespace Sys2Proof.Machine

/-- Settles O16: the writes, in any order, load the four registers of their group, which are the limbs of A or of B. -/
theorem loadOperandInAnyLimbOrder : Obligations.LoadOperandInAnyLimbOrder := by
  unfold Obligations.LoadOperandInAnyLimbOrder
  refine fun s host x l rest hx => ⟨fun hl hport => ?a, fun hl hport => ?b⟩
  case a =>
    obtain ⟨t, hrun, hrest, hload⟩ := run_ld256 (g := .a) rfl hl hport
    refine ⟨t, hrun, hload.val_eq hx fun k => t.cell_a, ?_, hload.q, hload.rm, hload.status, hrest, fun i => ?_⟩
    · exact hload.limbs_eq (base := 4) (.inr (by decide)) (fun k => t.cell_b) (fun k => s.cell_b)
    · simp [hload.isWritten_eq i, groupBase]
  case b =>
    obtain ⟨t, hrun, hrest, hload⟩ := run_ld256 (g := .b) rfl hl hport
    refine ⟨t, hrun, hload.val_eq hx fun k => t.cell_b, ?_, hload.q, hload.rm, hload.status, hrest,
      hload.isWritten_eq⟩
    exact hload.limbs_eq (base := 0) (.inl (by decide)) (fun k => t.cell_a) (fun k => s.cell_a)

end Sys2Proof.Machine
end

section
/-! A command write at the port (10_state.md R26, 20_memory.md R51), by index, as eight bytes, or placed there by
`withFetchWord`. -/

namespace Sys2Proof.Machine

variable {s : State} {host : Nat} {w : Word}

theorem performAccess_commandWrite (s : State) (host : Nat) (w : Word) :
    performAccess host (.write cmdIndex w) s = replyDone host (issueCommand w s) := by
  rw [← regWrite_command (idx := cmdIndex) rfl]
  rfl

theorem step_commandWrite {rest : List Event}
    (hport : s.port = .access host (.write cmdIndex w) :: rest ∨
      s.port = .access host (.busWrite (s.config.divBase + 128) (bytesOfWord w)) :: rest) :
    step s = replyDone host (issueCommand w (s.setPort rest)) := by
  rw [← performAccess_commandWrite]
  obtain hport | hport := hport
  · exact step_access hport
  · exact (step_access hport).trans (performAccess_busWrite_register (s.setPort rest) host cmdIndex w)

theorem step_withFetchWord (s : State) (w : Nat) :
    step (s.withFetchWord 64 w) = replyDone 0 (issueCommand (BitVec.ofNat 64 (w % 2 ^ 64)) s) :=
  step_commandWrite (s := s.withFetchWord 64 w) (.inl rfl)

end Sys2Proof.Machine
end

section
/-! A bus access outside the window (20_memory.md R51). -/

namespace Sys2Proof.Machine

/-- An access whose bytes lie all below the window, or all above it, does not reach it (20_memory.md R51). -/
theorem busTarget_outside {c : Config} {addr size : Nat}
    (h : addr + max size 1 ≤ c.divBase ∨ c.divBase + 256 ≤ addr) : busTarget c addr size = .outside := by
  have hreach : reachesWindow c.divBase addr size = false := by
    rw [reachesWindow, Bool.and_eq_false_iff, decide_eq_false_iff_not, decide_eq_false_iff_not]
    omega
  simp [busTarget, hreach]

end Sys2Proof.Machine
end

section
/-! STATUS by its bits: the three fields and the reserved bits above them (10_state.md R27). -/

namespace Sys2Proof.Machine

theorem getLsbD_of_reserved_zero {w : Word} (h : w.extractLsb' 3 61 = 0) {k : Nat} (hk : 3 ≤ k) :
    w.getLsbD k = false := by
  by_cases h64 : k < 64
  · have hbit := congrArg (·.getLsbD (k - 3)) h
    simpa [BitVec.getLsbD_extractLsb', show k - 3 < 61 by omega, Nat.add_sub_cancel' hk] using hbit
  · exact BitVec.getLsbD_of_ge w k (Nat.le_of_not_lt h64)

/-- A STATUS word is determined by its three fields where its reserved bits are zero. -/
theorem status_ext {x y : Word} (hx : x.extractLsb' 3 61 = 0) (hy : y.extractLsb' 3 61 = 0)
    (hvalid : statusValid x = statusValid y) (hdbz : statusDbz x = statusDbz y)
    (hillcmd : statusIllcmd x = statusIllcmd y) : x = y := by
  refine BitVec.eq_of_getLsbD_eq fun i _ => ?_
  match i with
  | 0 => exact hvalid
  | 1 => exact hdbz
  | 2 => exact hillcmd
  | i + 3 => rw [getLsbD_of_reserved_zero hx (by omega), getLsbD_of_reserved_zero hy (by omega)]

/-- A legal STATUS reads as itself. -/
theorem statusRead_of_legal {w : Word} (h : statusLegal w = true) : statusRead w = w := by
  have hreserved : w.extractLsb' 3 61 = 0 := by simp_all [statusLegal]
  exact status_ext (statusWord_reserved _ _ _) hreserved (statusValid_statusWord _ _ _)
    (statusDbz_statusWord _ _ _) (statusIllcmd_statusWord _ _ _)

theorem regRead_status (s : State) {idx : RegIndex} (h : idx.toNat = 17) :
    regRead s idx = .ok (statusRead s.status) := by
  simp [regRead, h]

end Sys2Proof.Machine
end

section
/-! Operand writes one after another: the last write of a limb counts, and writes of different limbs commute
(20_memory.md R58, 30_encoding.md R79). -/

namespace Sys2Proof

theorem Uint256.setLimb_setLimb_self (x : Uint256) (i : Nat) (v w : Word) :
    (x.setLimb i v).setLimb i w = x.setLimb i w :=
  Uint256.ext_limb fun k _ => by
    simp only [Uint256.limb_setLimb]
    split <;> rfl

theorem Uint256.setLimb_comm (x : Uint256) {i j : Nat} (h : i ≠ j) (v w : Word) :
    (x.setLimb i v).setLimb j w = (x.setLimb j w).setLimb i v :=
  Uint256.ext_limb fun k _ => by
    simp only [Uint256.limb_setLimb]
    by_cases hi : k = i
    · simp [hi, h]
    · simp [hi]

end Sys2Proof

namespace Sys2Proof.Machine

theorem OperandMarks.ext_isWritten {k l : OperandMarks} (h : ∀ i, k.isWritten i = l.isWritten i) : k = l := by
  cases k
  cases l
  exact OperandMarks.mk.injEq .. ▸ ⟨h 0, h 1, h 2, h 3, h 4, h 5, h 6, h 7⟩

theorem OperandMarks.mark_mark_self (k : OperandMarks) (i : Nat) : (k.mark i).mark i = k.mark i :=
  OperandMarks.ext_isWritten fun l => by
    simp only [OperandMarks.isWritten_mark]
    split <;> rfl

theorem OperandMarks.mark_comm (k : OperandMarks) (i j : Nat) : (k.mark i).mark j = (k.mark j).mark i :=
  OperandMarks.ext_isWritten fun l => by
    simp only [OperandMarks.isWritten_mark]
    split <;> split <;> rfl

theorem State.writeOperand_of_lt (s : State) {i : Nat} (h : i < 4) (w : Word) :
    s.writeOperand i w = { s with a := s.a.setLimb i w, written := s.written.mark i } := if_pos h

theorem State.writeOperand_of_ge (s : State) {i : Nat} (h : ¬ i < 4) (w : Word) :
    s.writeOperand i w = { s with b := s.b.setLimb (i - 4) w, written := s.written.mark i } := if_neg h

theorem State.writeOperand_writeOperand_self (s : State) (i : Nat) (v w : Word) :
    (s.writeOperand i v).writeOperand i w = s.writeOperand i w := by
  by_cases hi : i < 4
  · simp only [State.writeOperand_of_lt _ hi, Uint256.setLimb_setLimb_self, OperandMarks.mark_mark_self]
  · simp only [State.writeOperand_of_ge _ hi, Uint256.setLimb_setLimb_self, OperandMarks.mark_mark_self]

theorem State.writeOperand_comm (s : State) {i j : Nat} (h : i ≠ j) (v w : Word) :
    (s.writeOperand i v).writeOperand j w = (s.writeOperand j w).writeOperand i v := by
  by_cases hi : i < 4 <;> by_cases hj : j < 4
  · simp only [State.writeOperand_of_lt _ hi, State.writeOperand_of_lt _ hj, s.a.setLimb_comm h,
      s.written.mark_comm i j]
  · simp only [State.writeOperand_of_lt _ hi, State.writeOperand_of_ge _ hj, s.written.mark_comm i j]
  · simp only [State.writeOperand_of_ge _ hi, State.writeOperand_of_lt _ hj, s.written.mark_comm i j]
  · have hne : i - 4 ≠ j - 4 := by omega
    simp only [State.writeOperand_of_ge _ hi, State.writeOperand_of_ge _ hj, s.b.setLimb_comm hne,
      s.written.mark_comm i j]

end Sys2Proof.Machine
end

section
namespace Sys2Proof.Machine

/-- Settles O2: each command's word has the command's fields, no other word has, and the mask of the table's row keeps
all 64 bits. -/
theorem decoderAcceptsExactlyEncodedCommands : Obligations.DecoderAcceptsExactlyEncodedCommands := by
  unfold Obligations.DecoderAcceptsExactlyEncodedCommands
  refine ⟨fun i => ?roundTrip, fun w i => decode_eq_ok_iff, fun w i => ?table⟩
  case roundTrip =>
    cases i with
    | divmod => exact Laws.RoundTrip.divmod
  case table =>
    cases i
    have hmask : w &&& 18446744073709551615#64 = w := BitVec.and_allOnes
    have hword : encode .divmod = (0x0000000000000001 : Word) := by decide
    simp [decode_eq_ok_iff, opcodeTable, hmask, hword]

/-- Settles O3, by running the decoder on each word. -/
theorem sampleCommandWordsDecode : Obligations.SampleCommandWordsDecode := by
  unfold Obligations.SampleCommandWordsDecode
  decide

/-- Settles O4: the write of CMD issues the word, which runs what it decodes to. -/
theorem stepRunsTheDecodedCommand : Obligations.StepRunsTheDecodedCommand := by
  unfold Obligations.StepRunsTheDecodedCommand
  intro s host w rest i hdecode
  rw [← issueCommand_ok hdecode]
  exact ⟨fun hport => step_commandWrite (.inl hport), fun hport => step_commandWrite (.inr hport)⟩

/-- Settles O5: the placed write issues its word at the state before, with the port as it was. -/
theorem placedCommandWordRunsNext : Obligations.PlacedCommandWordRunsNext := by
  unfold Obligations.PlacedCommandWordRunsNext
  refine fun s => ⟨?_, fun w hw hne => ?_⟩
  · rw [step_withFetchWord, ← issueCommand_divmod]
    rfl
  · have hword : BitVec.ofNat 64 (w % 2 ^ 64) ≠ encode .divmod := fun h => hne (by
      have := congrArg BitVec.toNat h
      rwa [BitVec.toNat_ofNat, Nat.mod_mod, Nat.mod_eq_of_lt hw] at this)
    rw [step_withFetchWord, issueCommand_of_ne_divmod hword]

/-- Settles O7, by the case of `portStep` with nothing at the port. -/
theorem idlePortHoldsTheState : Obligations.IdlePortHoldsTheState := by
  unfold Obligations.IdlePortHoldsTheState
  exact ⟨rfl, fun s hport => by rw [step, portStep, hport]⟩

/-- Settles O9: reset writes the STATUS and the marks of `State.reset`, and VALID 0 keeps Q and RM from being read. -/
theorem resetEventClearsStatusAndMarks : Obligations.ResetEventClearsStatusAndMarks := by
  unfold Obligations.ResetEventClearsStatusAndMarks
  intro s rest hport
  have hvalid : statusValid (s.setPort rest).resetUnit.status = false :=
    (by decide : statusValid 0 = false)
  exact ⟨_, step_reset hport, rfl, OperandMarks.isWritten_none, fun hfault _ => regRead_resultNotValid hfault hvalid,
    rfl, rfl, rfl⟩

/-- Settles O11, by the cases of `RegRead`. -/
theorem readReturnsTheRegisterAndChangesNothing : Obligations.ReadReturnsTheRegisterAndChangesNothing := by
  unfold Obligations.ReadReturnsTheRegisterAndChangesNothing
  intro s host idx rest hport
  have hok {w : Word} (h : regRead (s.setPort rest) idx = .ok w) :
      step s = .next ((s.setPort rest).respond host (.data w)) := by rw [step_read hport, readAccess_ok h]
  have herror {f : Fault} (h : regRead (s.setPort rest) idx = .error f) : step s = .fault f := by
    rw [step_read hport, readAccess_error h]
  refine ⟨fun h8 hr => hok ?_, fun h8 hr => herror ?_, fun h8 h16 hr => hok ?_, fun h8 h16 hr => herror ?_,
    fun h17 => hok (regRead_status _ h17), fun h => herror (regRead_denied (by omega) (by omega))⟩
  · exact (regRead_operand _ h8).trans (if_pos hr)
  · exact (regRead_operand _ h8).trans (if_neg (ne_true_of_eq_false hr))
  · exact (regRead_result _ h8 h16).trans (if_pos hr)
  · exact (regRead_result _ h8 h16).trans (if_neg (ne_true_of_eq_false hr))

/-- Settles O12: STATUS reads as the word of its three fields, which is the register itself where that is legal. -/
theorem statusReadsItsFieldsAndZeroAbove : Obligations.StatusReadsItsFieldsAndZeroAbove := by
  unfold Obligations.StatusReadsItsFieldsAndZeroAbove
  exact fun s => ⟨_, regRead_status s rfl, statusValid_statusWord _ _ _, statusDbz_statusWord _ _ _,
    statusIllcmd_statusWord _ _ _, fun _ => getLsbD_of_reserved_zero (statusWord_reserved _ _ _), statusRead_of_legal⟩

/-- Settles O14: the write marks the register written, so that it may be read, and the register holds the value. -/
theorem operandReadsBackWhatWasWritten : Obligations.OperandReadsBackWhatWasWritten := by
  unfold Obligations.OperandReadsBackWhatWasWritten
  intro s idx v h8
  have hreadable : (s.writeOperand idx.toNat v).operandReadable idx.toNat = true := by
    simp [State.operandReadable, OperandMarks.isWritten_mark, h8]
  rw [regRead_operand _ h8, if_pos hreadable, State.cell_writeOperand s h8, if_pos rfl]

/-- Settles O15: the same limb and mark written twice, or two different ones in either order. -/
theorem operandWritesAreIdempotentAndCommute : Obligations.OperandWritesAreIdempotentAndCommute := by
  unfold Obligations.OperandWritesAreIdempotentAndCommute
  exact fun s i j v w _ _ => ⟨s.writeOperand_writeOperand_self i v v, fun h => s.writeOperand_comm h v w⟩

/-- Settles O19: the access is outside by its bytes, read or write. -/
theorem accessOutsideTheWindowIsRefused : Obligations.AccessOutsideTheWindowIsRefused := by
  unfold Obligations.AccessOutsideTheWindowIsRefused
  exact fun s host addr => ⟨fun size h => by simp [performAccess, busTarget_outside h],
    fun data h => by simp [performAccess, busTarget_outside h]⟩

/-- Settles O30: a wrong size never reaches the decoder, and an illegal word never reaches the divisor test. -/
theorem outcomesHaveTheirPriority : Obligations.OutcomesHaveTheirPriority := by
  unfold Obligations.OutcomesHaveTheirPriority
  refine fun s host hV hr => ⟨fun data hsize => ?size, fun w hw => ?illegal, ?divmod⟩
  case size =>
    exact performAccess_busWrite_malformed (busTarget_of_size_or_alignment (by omega) (by omega) (.inl hsize))
  case illegal =>
    rw [performAccess_commandWrite, issueCommand_of_ne_divmod hw]
    exact ⟨_, rfl, by simp⟩
  case divmod =>
    have hissue : issueCommand 0x0000000000000001 s = .next s.divisionByZero :=
      (issueCommand_divmod s).trans (exec_divmod_zero hr hV)
    rw [performAccess_commandWrite, hissue]
    exact ⟨_, rfl, by simp⟩

/-- Settles O53: such an access is malformed, by the shapes that reach a register. -/
theorem accessReachingIntoTheWindowIsAnAccessError : Obligations.AccessReachingIntoTheWindowIsAnAccessError := by
  unfold Obligations.AccessReachingIntoTheWindowIsAnAccessError
  exact fun s host addr hhigh =>
    ⟨fun size hlow hreg => performAccess_busRead_malformed (busTarget_malformed hlow hhigh hreg),
      fun data hlow hreg => performAccess_busWrite_malformed (busTarget_malformed hlow hhigh hreg)⟩

/-- Settles O54: IllegalCommand writes STATUS alone. -/
theorem illegalCommandKeepsTheInternalState : Obligations.IllegalCommandKeepsTheInternalState := by
  unfold Obligations.IllegalCommandKeepsTheInternalState
  intro s host w rest hw hport
  have hstep : step s = .next ((s.setPort rest).illegalCommand.respond host .done) := by
    rw [step_commandWrite hport, issueCommand_of_ne_divmod hw]
    rfl
  exact ⟨_, hstep, rfl, rfl⟩

end Sys2Proof.Machine
end
